-- ==== Sys2Proof/Word.lean ====
section
/-! DEFINITION. The word types of the wire-protocol core (spec/00_scope.md R9): bytes, 16-bit words, binary64 patterns. -/

namespace Sys2Proof

/-- A byte, an unsigned integer in 0 to 255 (R9). -/
abbrev Byte := BitVec 8

/-- A `u16`, an unsigned integer in 0 to 65535 (R9): the frame header, the checksum. -/
abbrev U16 := BitVec 16

/-- An `i16`, the 16-bit two's-complement pattern of a raw quaternion component (R9, R62); its signed value is `toInt`. -/
abbrev I16 := BitVec 16

/-- An `f64`, the bit pattern of an IEEE 754 binary64 number (R9). -/
abbrev F64 := BitVec 64

/-- The observer handle: an opaque token the collaborator chooses (R158); the block stores it and copies it, nothing else. -/
abbrev Handle := Nat

end Sys2Proof
end

