-- ==== Sys2Proof/Config.lean ====
section
/-! DEFINITION. The build-time parameters of spec/00_scope.md R8: their types, and the numerics record `NUM` as a free constant.
The spec's default values stand in `Machine/Constants.lean`. -/

namespace Sys2Proof

/-- The parameter set `CRC16_FN` (R8, R81): which CRC-16 variant the Checksum unit computes. -/
structure CrcParams where
  /-- `CRC_POLY`: the generator polynomial, top term implicit. -/
  poly   : U16
  /-- `CRC_INIT`: the register before the first byte. -/
  init   : U16
  /-- `CRC_REFIN`: each data byte is bit-reversed before use. -/
  refin  : Bool
  /-- `CRC_REFOUT`: the final register is bit-reversed. -/
  refout : Bool
  /-- `CRC_XOROUT`: exclusive-ored into the result. -/
  xorout : U16
  deriving DecidableEq, Repr

/-- The build-time parameters that are plain data (R8, R14): fixed when the block is built, the same at every step. -/
structure Params where
  /-- `CRC16_FN`. -/
  crc      : CrcParams
  /-- `MAX_CHUNK`: the longest piece of a chunk the build takes at once, none for no limit (R8, R211). -/
  maxChunk : Option Nat
  /-- `BUF_CAP`: the bytes `BUF` can hold, none for no cap (R8, R30, R211). -/
  bufCap   : Option Nat
  deriving DecidableEq, Repr

/-- The functions of the numerics record `NUM` (R138) whose results the spec does not pin.
Their arguments are the exact integers of R136. -/
structure Numerics where
  /-- `atan2 u v`: the angle of the point with ordinate `u` and abscissa `v` (only their ratio and signs matter, R136). -/
  atan2 : Int → Int → F64
  /-- `asin n d`: the angle whose sine is `n / d`. -/
  asin  : Int → Int → F64
  /-- Radians to degrees. -/
  deg   : F64 → F64
  deriving Inhabited

/-- The numerics record of this build (R138, 92_eei_decisions.md D8). No body: the spec gives no rounding rule, so no claim can rest
on the last bits of an angle. Log entry 7. -/
opaque Config.num : Numerics

end Sys2Proof
end

