-- ==== Sys2Proof/Machine/Constants.lean ====
section
/-! DEFINITION. The constants of spec/00_scope.md R7, "a model hardwires them; none is writable at run time", and the default values of
the parameters of R8. -/

namespace Sys2Proof.Machine

/-- `SENT_START`, the first byte of every frame (R7, R57). -/
def sentStart : Byte := 0xFD
/-- `SENT_END`, the last byte of every frame (R7, R57). -/
def sentEnd : Byte := 0xDD
/-- `SIZE_MASK`: header bits 9 to 0 (R7, R51). -/
def sizeMask : U16 := 0x03FF
/-- `RESP_MASK`: header bit 12 (R7, R51). -/
def respMask : U16 := 0x1000
/-- `SIZE_MAX`: the largest `size` the 10-bit field holds (R7). -/
def sizeMax : Nat := 1023
/-- `PAYLOAD_MAX`, `SIZE_MAX - 3` (R7, R91). -/
def payloadMax : Nat := sizeMax - 3
/-- `FRAME_OVERHEAD`: the bytes of a frame outside `size` (R7). -/
def frameOverhead : Nat := 4
/-- `MIN_BUF`: the threshold of the reassembler's loop and of `DECODE` (R7; not a frame size, 90_conflicts.md C2). -/
def minBuf : Nat := 6
/-- `HDR_NEED`: sentinel plus header (R7). -/
def hdrNeed : Nat := 3
/-- `Q_SCALE`: the divisor of each raw quaternion component (R7). -/
def qScale : Nat := 10000
/-- `S2 = S * S`, the denominator of the exact forms (R136, R141). -/
def qScaleSq : Int := 100000000
/-- `ORI_MIN_LEN`: the shortest payload the Orientation Decoder accepts (R7). -/
def oriMinLen : Nat := 9
/-- `SUBTYPE_ORI`: the orientation-data subtype tag (R7, R62). -/
def subtypeOri : Byte := 32
/-- `MSG_SET_SPATIAL_AUDIO_ENABLE` (R7, R60). -/
def msgEnable : Byte := 124
/-- `MSG_SPATIAL_AUDIO_DATA` (R7, R60). -/
def msgData : Byte := 194
/-- `MSG_SPATIAL_AUDIO_CONTROL` (R7, R60). -/
def msgControl : Byte := 195
/-- Control code 0, attach (R61). -/
def codeAttach : Byte := 0
/-- Control code 1, detach (R61). -/
def codeDetach : Byte := 1
/-- Control code 2, attach-success (R61). -/
def codeAttachSuccess : Byte := 2
/-- Control code 3, detach-success (R61). -/
def codeDetachSuccess : Byte := 3
/-- Control code 4, keep-alive (R61; 90_conflicts.md C5). -/
def codeKeepAlive : Byte := 4

/-- The default `CRC16_FN` (R8, R81): polynomial `0x1021`, initial value 0, no reflection, no final exclusive-or.
The spec's own choice from general knowledge (92_eei_decisions.md D1). Log entry 6. -/
def defaultCrc : CrcParams := ⟨0x1021, 0x0000, false, false, 0x0000⟩

/-- The default parameters (R8): the default `CRC16_FN`, no `MAX_CHUNK`, no `BUF_CAP`. -/
def defaultParams : Params := ⟨defaultCrc, none, none⟩

end Sys2Proof.Machine
end

