-- ==== Sys2Proof/Syntax.lean ====
section
/-! DEFINITION. The values operations exchange (spec/10_state.md R15, R17), the operations (one constructor per row of
spec/opcode_table.json) and the form in which a caller issues one (spec/30_encoding.md R66). -/

namespace Sys2Proof

/-- The decoded semantic unit (R15). Two messages are equal when the three fields are. -/
structure Message where
  messageId  : Byte
  payload    : List Byte
  isResponse : Bool
  deriving DecidableEq, Repr

/-- A quaternion held as its four raw `i16` values (R17): the field values are `xr / 10000` and so on.
Nothing says it is a unit quaternion. -/
structure Orientation where
  xr : I16
  yr : I16
  zr : I16
  wr : I16
  deriving DecidableEq, Repr

/-- One component of a quaternion a collaborator hands to `EULER` or `ROTMAT`; band0 types it `f64` (R144). -/
inductive Component where
  /-- The value `n / 10000`. -/
  | grid (n : Int)
  /-- Any `f64` that is no integer over 10000, an infinity or a NaN. -/
  | offGrid
  deriving DecidableEq, Repr

/-- The quaternion operand of `EULER` and `ROTMAT` before its domain test (R144). -/
structure QuatArg where
  x : Component
  y : Component
  z : Component
  w : Component
  deriving DecidableEq, Repr

/-- The operand lane of zeros. -/
def QuatArg.zero : QuatArg := ⟨.grid 0, .grid 0, .grid 0, .grid 0⟩

/-- One constructor per row of spec/opcode_table.json.
The first twelve are the operations of R19, the next four the reserved select codes of R67.
The last twelve are the table's wire-format rows: constants that stand in a field of a frame. Log entry 2 says what
transaction the model makes of each. -/
inductive Instr where
  /-- `CRC16(data)` (R80). -/
  | crc16 (data : List Byte)
  /-- `ENCODE(message_id, payload, is_response)` (R90). -/
  | encode (messageId : Byte) (payload : List Byte) (isResponse : Bool)
  /-- `DECODE(data)` (R94). -/
  | decode (data : List Byte)
  /-- `FEED(chunk)` (R110). -/
  | feed (chunk : List Byte)
  /-- `ODECODE(payload)` (R130). -/
  | odecode (payload : List Byte)
  /-- `EULER(q)` (R135). -/
  | euler (q : QuatArg)
  /-- `ROTMAT(q)` (R140). -/
  | rotmat (q : QuatArg)
  /-- `ROUTE(m)` (R150). -/
  | route (m : Message)
  /-- `SFEED(chunk)` (R155). -/
  | sfeed (chunk : List Byte)
  /-- `LATEST_RD()` (R157). -/
  | latestRd
  /-- `SUBSCRIBE(handle)` (R158). -/
  | subscribe (handle : Handle)
  /-- `RESET()` (R195). -/
  | reset
  /-- Select code 12, reserved (R67). -/
  | reserved12
  /-- Select code 13, reserved (R67). -/
  | reserved13
  /-- Select code 14, reserved (R67). -/
  | reserved14
  /-- Select code 15, reserved (R67). -/
  | reserved15
  /-- A frame header arrives on the byte stream, low byte first (R51). -/
  | frameHeader (header : U16)
  /-- The start sentinel arrives on the byte stream (R57). -/
  | sentStart
  /-- The end sentinel arrives on the byte stream (R57). -/
  | sentEnd
  /-- A set-spatial-audio-enable message (id 124) reaches the router (R60). -/
  | msgSetSpatialAudioEnable (payload : List Byte) (isResponse : Bool)
  /-- A spatial-audio-data message (id 194) reaches the router (R60). -/
  | msgSpatialAudioData (payload : List Byte) (isResponse : Bool)
  /-- A spatial-audio-control message (id 195) reaches the router (R60). -/
  | msgSpatialAudioControl (payload : List Byte) (isResponse : Bool)
  /-- A control message whose first payload byte is 0, attach, reaches the router (R61). -/
  | ctrlAttach (rest : List Byte) (isResponse : Bool)
  /-- A control message whose first payload byte is 1, detach (R61). -/
  | ctrlDetach (rest : List Byte) (isResponse : Bool)
  /-- A control message whose first payload byte is 2, attach-success (R61). -/
  | ctrlAttachSuccess (rest : List Byte) (isResponse : Bool)
  /-- A control message whose first payload byte is 3, detach-success (R61). -/
  | ctrlDetachSuccess (rest : List Byte) (isResponse : Bool)
  /-- A control message whose first payload byte is 4, keep-alive (R61). -/
  | ctrlKeepAlive (rest : List Byte) (isResponse : Bool)
  /-- A spatial-audio-data message whose first payload byte is the orientation subtype tag 32 (R62). -/
  | subtypeOrientation (rest : List Byte) (isResponse : Bool)
  deriving DecidableEq, Repr

/-- The word that selects an operation, in the field the table's "format" column names.
The same bits mean different things in different fields, as they do on the hardware's own interface. -/
inductive CodeWord where
  /-- Format `OP`: the 4-bit select code `op[3:0]` (R66). -/
  | op (sel : BitVec 4)
  /-- Format `WIRE.header16`: a 16-bit frame header (R51). -/
  | header16 (w : U16)
  /-- Format `WIRE.byte@0`: the byte that starts a frame (R57). -/
  | byteFirst (b : Byte)
  /-- Format `WIRE.byte@last`: the byte that ends a frame (R57). -/
  | byteLast (b : Byte)
  /-- Format `WIRE.message_id` (R60). -/
  | messageId (b : Byte)
  /-- Format `WIRE.control_code` (R61). -/
  | controlCode (b : Byte)
  /-- Format `WIRE.subtype_tag` (R62). -/
  | subtypeTag (b : Byte)
  deriving DecidableEq, Repr

/-- An operation as the caller issues it: the code, and the operands "passed by value beside the code" (R66).
Each operation reads its own operand lanes; the other lanes are ignored. Log entry 1. -/
structure Request where
  code       : CodeWord
  /-- `data`, `payload` or `chunk`; for a control-code or subtype-tag word, the payload bytes after it. -/
  data       : List Byte := []
  messageId  : Byte := 0
  isResponse : Bool := false
  quat       : QuatArg := QuatArg.zero
  handle     : Handle := 0
  deriving DecidableEq, Repr

/-- Why a request is no operation: a wire word that is no row of the opcode table in its field. -/
inductive DecodeError where
  /-- A byte given as start sentinel that is not `0xFD`. -/
  | notSentStart (b : Byte)
  /-- A byte given as end sentinel that is not `0xDD`. -/
  | notSentEnd (b : Byte)
  /-- A message id the table has no row for; such a message is routed by `ROUTE` (R60, R154). -/
  | unlistedMessageId (b : Byte)
  /-- A control code the table has no row for; such a message is routed by `ROUTE` (R61, R153). -/
  | unlistedControlCode (b : Byte)
  /-- A subtype tag the table has no row for; such a payload is routed by `ROUTE` (R63, R152). -/
  | unlistedSubtypeTag (b : Byte)
  deriving DecidableEq, Repr

end Sys2Proof
end

