-- ==== Sys2Proof/Machine/State.lean ====
section
/-! DEFINITION. The state of one block instance (spec/10_state.md R11), the outputs an operation hands back (R19, R20), the
reasons a step can stop, and the reset state (R24). -/

namespace Sys2Proof.Machine

/-- An output event (R20). -/
inductive Event where
  /-- `ORI_EVT(handle, o)`: the observer is notified that `LATEST` became `some o`. -/
  | oriEvt (handle : Handle) (o : Orientation)
  /-- `STATUS_EVT(code)`: a spatial-audio-control message with first payload byte `code` was routed. -/
  | statusEvt (code : Byte)
  deriving DecidableEq, Repr

/-- An orientation's field values as binary64 patterns (R133). -/
structure Rendering where
  x : F64
  y : F64
  z : F64
  w : F64
  deriving DecidableEq, Repr

/-- The five exact integers of R136; the denominator of the pitch argument is `10^8`. -/
structure EulerArgs where
  rollNum  : Int
  rollDen  : Int
  pitchNum : Int
  yawNum   : Int
  yawDen   : Int
  deriving DecidableEq, Repr

/-- The three angles of `EULER` in degrees, as the build's numerics give them (R135, R138). -/
structure Angles where
  roll  : F64
  pitch : F64
  yaw   : F64
  deriving DecidableEq, Repr

/-- The nine integers `N[i][j]` of R141 (`M[i][j] = N[i][j] / 10^8`); the field order is row-major, the order of delivery (R140). -/
structure Matrix where
  n00 : Int
  n01 : Int
  n02 : Int
  n10 : Int
  n11 : Int
  n12 : Int
  n20 : Int
  n21 : Int
  n22 : Int
  deriving DecidableEq, Repr

/-- The block's exceptions: there is one (R170). -/
inductive Exc where
  /-- `PayloadTooLarge`, carrying the payload length (E1). Raised by `ENCODE` only. -/
  | payloadTooLarge (n : Nat)
  deriving DecidableEq, Repr

/-- What the last operation handed back to its caller (R19). -/
inductive Result where
  /-- Nothing (`ROUTE`, `SUBSCRIBE`, `RESET`), or no operation yet. -/
  | nothing
  /-- `CRC16`. -/
  | checksum (v : U16)
  /-- `ENCODE` succeeded. -/
  | frame (bytes : List Byte)
  /-- The operation raised an exception; there is no other result (R171). -/
  | raised (e : Exc)
  /-- `DECODE`: the message or none; the diagnostic `crc_ok` is there exactly beside a message (R96). -/
  | decoded (m : Option Message) (crcOk : Option Bool)
  /-- `FEED`, `SFEED`: the messages, and the side list of their `crc_ok` diagnostics (R116). -/
  | messages (ms : List Message) (crcOk : List Bool)
  /-- `ODECODE`, `LATEST_RD`: the orientation or none, and its `f64` rendering (R133). -/
  | orientation (o : Option Orientation) (f64 : Option Rendering)
  /-- `EULER`: the three angles are its result (R19, R135); that the exact arguments of R136 are delivered beside them is the model's
  choice. Log entry 22. -/
  | euler (args : EulerArgs) (angles : Angles)
  /-- `ROTMAT`. -/
  | matrix (m : Matrix)
  deriving DecidableEq, Repr

/-- The state of one block instance, and its interface to the caller.
`buf`, `latest` and `obs` are the whole architectural state (R10, R11). The other four fields are the model's own: the build-time
parameters an operation may read (R8; log entry 5), the operations the caller has issued and the block has not begun, oldest first
(R43; log entry 1), and the last operation's outputs (R13, R19; log entry 4), which no operation reads. -/
structure State where
  /-- `BUF`, the Reassembly Buffer, oldest byte first (R30). -/
  buf      : List Byte
  /-- `LATEST`, the latest-known orientation. -/
  latest   : Option Orientation
  /-- `OBS`, the single observer slot. -/
  obs      : Option Handle
  params   : Params
  requests : List Request
  result   : Result
  events   : List Event
  deriving DecidableEq, Repr

/-- The machine stops with a fault. The spec gives the block no fault: both reasons are guards the model puts on rules that are
stated to hold, and stopping is safe. -/
inductive Fault where
  /-- A buffer access outside `BUF`: `MemRead(addr, n)` "is defined only when `addr + n <= len(BUF)`" (R34), `BufDrop(k)` only for
  `k <= len(BUF)` (R32, as a read of the bytes dropped). Raised by `memRead` and `bufDrop`; safe. -/
  | bufOutOfRange (addr n len : Nat)
  /-- The reassembler's loop ran longer than R119 says it can. Raised by `feedLoop`; safe. -/
  | loopBound
  deriving DecidableEq, Repr

/-- The model takes no step. Every refusal is safe: "A refusal errs toward making claims unprovable" (R181). -/
inductive Refusal where
  /-- An instruction whose meaning is not written; raised by an arm of `exec` only, and no arm raises it. Safe. -/
  | notModelled (mnemonic : String)
  /-- A reserved select code, 12 to 15 (R67); raised by the meanings of those codes. Safe. -/
  | reservedSelectCode (code : BitVec 4)
  /-- `EULER` or `ROTMAT` of a quaternion that is not four raw `i16` values (R144, R181); raised by those two. Safe. -/
  | orientationOutsideDomain
  /-- The request is no row of the opcode table; raised by `step` when the decoder rejects. Safe. -/
  | undecodable (e : DecodeError)
  deriving DecidableEq, Repr

/-- The machine right after reset (R24): `BUF = []`, `LATEST = none`, `OBS = none`; the parameters at their defaults (R8), nothing
issued, no output yet. -/
def State.reset : State where
  buf      := []
  latest   := none
  obs      := none
  params   := defaultParams
  requests := []
  result   := .nothing
  events   := []

end Sys2Proof.Machine
end

