-- ==== Sys2Proof/Machine/Operands.lean ====
section
/-! DEFINITION. Operand forms: byte sequences by index and slice, 16-bit fields from two bytes (spec/00_scope.md R9,
spec/20_memory.md R36, R38), the header's fields (spec/30_encoding.md R51, R59), the quaternion operand (spec/43_orientation.md R144). -/

namespace Sys2Proof.Machine

/-- `s[i]` of an operand value (R9). Every rule that reads it tests the length first, so the zero past the end is never a result. -/
def byteAt (s : List Byte) (i : Nat) : Byte := s.getD i 0

/-- `s[a:b]`, empty when `b <= a` (R9). -/
def slice (s : List Byte) (a b : Nat) : List Byte := (s.drop a).take (b - a)

/-- `LE16(lo, hi) = lo | (hi << 8)` (R9). -/
def le16 (lo hi : Byte) : U16 := lo.setWidth 16 ||| (hi.setWidth 16 <<< 8)

/-- `le16_bytes(v) = [v & 0xFF, (v >> 8) & 0xFF]` (R9). -/
def le16Bytes (v : U16) : List Byte := [v.setWidth 8, (v >>> 8).setWidth 8]

/-- `S16LE(lo, hi)`: the `i16` with the two's-complement pattern `LE16(lo, hi)` (R9). -/
def s16le (lo hi : Byte) : I16 := le16 lo hi

/-- `size = header & 0x03FF`, zero-extended, not scaled (R59). -/
def headerSize (header : U16) : Nat := (header &&& sizeMask).toNat

/-- `is_response = (header & 0x1000) != 0` (R59). -/
def headerIsResponse (header : U16) : Bool := header &&& respMask != 0

/-- `payload_len = max(0, size - 3)` (R59): natural subtraction is that maximum. -/
def headerPayloadLen (header : U16) : Nat := headerSize header - 3

/-- `total_size = 1 + 2 + size + 1` (R55). -/
def headerTotal (header : U16) : Nat := headerSize header + frameOverhead

/-- `header = size | (0x1000 if is_response else 0)` (R90, R91). -/
def makeHeader (size : Nat) (isResponse : Bool) : U16 :=
  BitVec.ofNat 16 size ||| (if isResponse then respMask else 0)

/-- The raw `i16` of a component in the domain (R144). -/
def componentRaw : Component → Option I16
  | .grid n => if -32768 ≤ n ∧ n ≤ 32767 then some (BitVec.ofInt 16 n) else none
  | .offGrid => none

/-- The Orientation a quaternion operand is, none when it lies outside the domain (R144, R181). -/
def quatOrientation (q : QuatArg) : Option Orientation :=
  match componentRaw q.x, componentRaw q.y, componentRaw q.z, componentRaw q.w with
  | some x, some y, some z, some w => some ⟨x, y, z, w⟩
  | _, _, _, _ => none

end Sys2Proof.Machine
end

