-- ==== Sys2Proof/Machine/Ops.lean ====
section
/-! DEFINITION. The named operations over the Reassembly Buffer (spec/20_memory.md R30 to R34) and over the state elements, the
output ports of an operation, raising the one exception (spec/60_exceptions.md R171) and returning from it (R179). -/

namespace Sys2Proof.Machine

/-! ### The buffer -/

/-- `BufAppend(chunk)`: `BUF <- BUF ++ chunk` (R31). -/
def bufAppend (buf chunk : List Byte) : List Byte := buf ++ chunk

/-- `BufDrop(k)` for `0 <= k <= len(BUF)`: `BUF <- BUF[k:]` (R32). -/
def bufDrop (buf : List Byte) (k : Nat) : Except Fault (List Byte) :=
  if k ≤ buf.length then .ok (buf.drop k) else .error (.bufOutOfRange 0 k buf.length)

/-- `BufClear()`: `BUF <- []` (R33). -/
def bufClear : List Byte := []

/-- `MemRead(addr, n) = BUF[addr : addr+n]`, defined only when `addr + n <= len(BUF)`; it changes nothing (R34). -/
def memRead (buf : List Byte) (addr n : Nat) : Except Fault (List Byte) :=
  if addr + n ≤ buf.length then .ok ((buf.drop addr).take n) else .error (.bufOutOfRange addr n buf.length)

/-- The buffer as a memory: one cell per index, the oldest byte at address 0 (R30). -/
def memoryCells (buf : List Byte) : List Host.Cell := (List.range buf.length).zip buf

/-- The canonical form of the buffer's cells: the addresses are 0, 1, 2 and so on, each once, in rising order (R30). -/
def memoryWf (cells : List Host.Cell) : Bool := cells.map Prod.fst == List.range cells.length

/-! ### State elements and output ports -/

/-- `BUF <- b`. -/
def State.setBuf (s : State) (b : List Byte) : State := { s with buf := b }

/-- `LATEST <- some(o)` (R151). -/
def State.setLatest (s : State) (o : Orientation) : State := { s with latest := some o }

/-- `OBS <- some(h)` (R158). -/
def State.setObs (s : State) (h : Handle) : State := { s with obs := some h }

/-- The three state elements at their reset values (R24, R195). -/
def State.clearElements (s : State) : State := { s with buf := bufClear, latest := none, obs := none }

/-- An operation begins: its event list is empty and it has no result yet (R19). -/
def State.start (s : State) : State := { s with result := .nothing, events := [] }

/-- `return v`: the operation ends with result `v` (R9). -/
def State.deliver (s : State) (r : Result) : State := { s with result := r }

/-- `emit EVT(v)`: append to the operation's output event list (R9, R20). -/
def State.emit (s : State) (e : Event) : State := { s with events := s.events ++ [e] }

/-- Notify the observer that `LATEST` became `some o`; with no observer registered nothing is emitted (R150, R151). -/
def State.notify (s : State) (o : Orientation) : State :=
  match s.obs with
  | some h => s.emit (.oriEvt h o)
  | none => s

/-! ### The exception -/

/-- Taking an exception (R171): "no output byte is produced", no state is written, "no event is emitted; nothing is saved
anywhere; no mode changes; control is simply back with the caller, who holds the failure". There is no vector. -/
def State.raise (s : State) (e : Exc) : State := s.start.deliver (.raised e)

/-- Return from an exception (R179): there is no such operation and "nothing to restore"; the block goes on from the state the
exception left. -/
def State.afterException (s : State) : State := s

/-! ### Sequencing -/

/-- Run `f` on the value of an outcome; a fault or a refusal stops. -/
def andThen {α β : Type} (o : Host.Outcome α Fault Refusal) (f : α → Host.Outcome β Fault Refusal) : Host.Outcome β Fault Refusal :=
  match o with
  | .next a => f a
  | .fault r => .fault r
  | .refused r => .refused r

end Sys2Proof.Machine
end

