-- ==== Sys2Proof/Machine/Reset.lean ====
section
/-! DEFINITION. `RESET` (spec/70_reset_and_hazards.md R195) and the reserved select codes (spec/30_encoding.md R67). -/

namespace Sys2Proof.Machine

/-- `RESET` (R195, R196): the three state elements at their reset values; nothing is sent, no event.
The build-time parameters cannot change while the block runs (R14), and what the caller has issued after it stays issued. -/
def execReset (s : State) : Host.Outcome State Fault Refusal := .next s.start.clearElements

/-- A reserved select code: "A model refuses them: it has no step for them and gives them no meaning" (R67, R181). -/
def refuseReserved (code : BitVec 4) : Host.Outcome State Fault Refusal := .refused (.reservedSelectCode code)

/-- Select code 12 (R67). -/
def execReserved12 (_s : State) : Host.Outcome State Fault Refusal := refuseReserved 12
/-- Select code 13 (R67). -/
def execReserved13 (_s : State) : Host.Outcome State Fault Refusal := refuseReserved 13
/-- Select code 14 (R67). -/
def execReserved14 (_s : State) : Host.Outcome State Fault Refusal := refuseReserved 14
/-- Select code 15 (R67). -/
def execReserved15 (_s : State) : Host.Outcome State Fault Refusal := refuseReserved 15

end Sys2Proof.Machine
end

