-- ==== Sys2Proof/Machine/Checksum.lean ====
section
/-! DEFINITION. The Checksum unit (spec/40_checksum.md): `CRC16`. -/

namespace Sys2Proof.Machine

/-- One turn of the inner loop of R82: shift left, exclusive-or the polynomial when the top bit was set. -/
def crcShift (p : CrcParams) (crc : U16) : U16 :=
  if crc &&& 0x8000 != 0 then (crc <<< 1) ^^^ p.poly else crc <<< 1

/-- The inner loop `n` times; R82 repeats it 8 times a byte. -/
def crcShifts (p : CrcParams) : Nat → U16 → U16
  | 0, crc => crc
  | n + 1, crc => crcShifts p n (crcShift p crc)

/-- One byte enters the high half of the register and is shifted through (R82). -/
def crcByte (p : CrcParams) (crc : U16) (b : Byte) : U16 :=
  let b := if p.refin then b.reverse else b
  crcShifts p 8 (crc ^^^ (b.setWidth 16 <<< 8))

/-- The register after a byte sequence, first byte first (R82). -/
def crcRegister (p : CrcParams) (data : List Byte) : U16 := data.foldl (crcByte p) p.init

/-- `CRC16(data)` (R80, R82). -/
def crc16 (p : CrcParams) (data : List Byte) : U16 :=
  let crc := crcRegister p data
  (if p.refout then crc.reverse else crc) ^^^ p.xorout

/-- The table entry `T[k]` of the byte-at-a-time form (R83): `k << 8` after the eight turns. -/
def crcTable (p : CrcParams) (k : Byte) : U16 := crcShifts p 8 (k.setWidth 16 <<< 8)

/-- One byte by the table (R83). -/
def crcByteByTable (p : CrcParams) (crc : U16) (b : Byte) : U16 :=
  (crc <<< 8) ^^^ crcTable p (((crc >>> 8) ^^^ b.setWidth 16).setWidth 8)

/-- `CRC16` (R80): the result depends on `data` and the parameter set alone; no state is read or written. -/
def execCrc16 (data : List Byte) (s : State) : Host.Outcome State Fault Refusal :=
  .next (s.start.deliver (.checksum (crc16 s.params.crc data)))

end Sys2Proof.Machine
end

