-- ==== Sys2Proof/Machine/Flags.lean ====
section
/-! DEFINITION. The block has no flags or condition codes (spec/10_state.md R13). What it computes beside a result is here: the
diagnostic `crc_ok` (spec/41_frame_codec.md R96) and the labelled causes of "no message" (spec/60_exceptions.md R172, R178). -/

namespace Sys2Proof.Machine

/-- Why `DECODE` finds no message: N1 to N4 of R172, in the order R178 decides them. The caller sees only `none`. -/
inductive NoMessage where
  /-- N1: fewer than 6 bytes. -/
  | tooShort
  /-- N2: the first byte is not the start sentinel. -/
  | badStart
  /-- N3: the byte at `end_off` does not exist (R100). -/
  | truncated
  /-- N4: the byte at `end_off` is not the end sentinel. -/
  | badEnd
  deriving DecidableEq, Repr

/-- Why the Orientation Decoder gives no orientation: N10 and N11 of R172. -/
inductive NoOrientation where
  /-- N10: fewer than 9 bytes. -/
  | shortPayload
  /-- N11: the first byte is not the orientation subtype tag. -/
  | otherSubtype
  deriving DecidableEq, Repr

/-- Which exit a pass of the reassembler's loop took (R118; N7 and N9 of R172). -/
inductive LoopExit where
  /-- The top test: fewer than 6 bytes buffered (R112). -/
  | short
  /-- N7: no start sentinel in the buffer, which is cleared (R113). -/
  | desync
  /-- N9: fewer than 3 bytes, the header is not complete (R114). -/
  | headerWait
  /-- N9: fewer bytes than the frame needs (R114). -/
  | frameWait
  deriving DecidableEq, Repr

/-- `crc_ok`: `CRC16(message_id ++ payload)` equals the checksum stored in the frame (R96). -/
def crcOk (p : CrcParams) (messageId : Byte) (payload : List Byte) (wireCrc : U16) : Bool :=
  crc16 p (messageId :: payload) == wireCrc

end Sys2Proof.Machine
end

