-- ==== Sys2Proof/Machine/Numerics.lean ====
section
/-! DEFINITION. The numerics the spec does pin (spec/43_orientation.md R133, R137): `NUM.toF64`, the binary64 number nearest to
`r / 10000`, and the clamp. What it leaves open (`atan2`, `asin`, `deg`) is `Config.num`. -/

namespace Sys2Proof.Machine

/-- `q` or `q + 1`, whichever is nearer to `q + rem / d`; the even one when they are equally near. -/
def roundHalfEven (q rem d : Nat) : Nat :=
  if d < 2 * rem ∨ (2 * rem = d ∧ q % 2 = 1) then q + 1 else q

/-- The binary64 pattern, without its sign, nearest to `n / d`, ties to even, for values between `2^-64` and `2^52`.
The exponent field is the floor of the binary logarithm plus 1023; a significand that rounds up to `2^53` carries into it. -/
def f64Magnitude (n d : Nat) : Nat :=
  if n = 0 then 0
  else
    let log := (n * 2 ^ 64 / d).log2
    let scaled := n * 2 ^ (116 - log)
    (log + 959) * 2 ^ 52 + roundHalfEven (scaled / d) (scaled % d) d - 2 ^ 52

/-- `NUM.toF64(r)` for a raw value `r` (R133): nearest binary64 to `r / 10000`, ties to even; positive zero for zero. -/
def toF64 (r : I16) : F64 :=
  BitVec.ofNat 64 ((if r.toInt < 0 then 2 ^ 63 else 0) + f64Magnitude r.toInt.natAbs qScale)

/-- The field values of an orientation as band0 types them (R17, R133). -/
def renderOrientation (o : Orientation) : Rendering := ⟨toF64 o.xr, toF64 o.yr, toF64 o.zr, toF64 o.wr⟩

/-- The clamp of the pitch argument as an integer test over `10^8` (R136, R137). -/
def clampPitch (n : Int) : Int :=
  if qScaleSq ≤ n then qScaleSq else if n ≤ -qScaleSq then -qScaleSq else n

end Sys2Proof.Machine
end

