-- ==== Sys2Proof/Machine/Orientation.lean ====
section
/-! DEFINITION. The Orientation Decoder and the conversions (spec/43_orientation.md): `ODECODE`, `EULER`, `ROTMAT`. -/

namespace Sys2Proof.Machine

/-- `ODECODE` with the cause of "none" (R130, R178): the length test first, then the subtype tag (R131); `w` is last on the wire
(R132). -/
def orientationOf (p : List Byte) : Except NoOrientation Orientation :=
  if p.length < oriMinLen then .error .shortPayload
  else if byteAt p 0 ≠ subtypeOri then .error .otherSubtype
  else .ok {
    xr := s16le (byteAt p 1) (byteAt p 2)
    yr := s16le (byteAt p 3) (byteAt p 4)
    zr := s16le (byteAt p 5) (byteAt p 6)
    wr := s16le (byteAt p 7) (byteAt p 8) }

/-- `ODECODE(payload)` as its caller sees it (R130). -/
def odecode (p : List Byte) : Option Orientation := (orientationOf p).toOption

/-- The result of an operation that returns an orientation or none, with the `f64` rendering beside it (R133). -/
def orientationResult (o : Option Orientation) : Result := .orientation o (o.map renderOrientation)

/-- The five exact integers of R136. -/
def eulerArgs (o : Orientation) : EulerArgs :=
  let a := o.xr.toInt
  let b := o.yr.toInt
  let c := o.zr.toInt
  let d := o.wr.toInt
  { rollNum  := 2 * (d * a + b * c)
    rollDen  := qScaleSq - 2 * (a * a + b * b)
    pitchNum := 2 * (d * b - c * a)
    yawNum   := 2 * (d * c + a * b)
    yawDen   := qScaleSq - 2 * (b * b + c * c) }

/-- The angles of R135 from the exact integers, with the numerics record `num` (R136, R138). -/
def eulerAngles (num : Numerics) (e : EulerArgs) : Angles :=
  { roll  := num.deg (num.atan2 e.rollNum e.rollDen)
    pitch := num.deg (num.asin (clampPitch e.pitchNum) qScaleSq)
    yaw   := num.deg (num.atan2 e.yawNum e.yawDen) }

/-- The nine integers `N[i][j]` of R141. -/
def rotationMatrix (o : Orientation) : Matrix :=
  let a := o.xr.toInt
  let b := o.yr.toInt
  let c := o.zr.toInt
  let d := o.wr.toInt
  { n00 := qScaleSq - 2 * (b * b + c * c), n01 := 2 * (a * b - c * d), n02 := 2 * (a * c + b * d)
    n10 := 2 * (a * b + c * d), n11 := qScaleSq - 2 * (a * a + c * c), n12 := 2 * (b * c - a * d)
    n20 := 2 * (a * c - b * d), n21 := 2 * (b * c + a * d), n22 := qScaleSq - 2 * (a * a + b * b) }

/-- `ODECODE` (R130). -/
def execOdecode (payload : List Byte) (s : State) : Host.Outcome State Fault Refusal :=
  .next (s.start.deliver (orientationResult (odecode payload)))

/-- `EULER` (R135); a quaternion outside the domain is refused (R144, R181). The exact arguments are delivered beside the angles, which
is the model's choice (log entry 22). -/
def execEuler (q : QuatArg) (s : State) : Host.Outcome State Fault Refusal :=
  match quatOrientation q with
  | some o => .next (s.start.deliver (.euler (eulerArgs o) (eulerAngles Config.num (eulerArgs o))))
  | none => .refused .orientationOutsideDomain

/-- `ROTMAT` (R140, R141); a quaternion outside the domain is refused (R144, R181). -/
def execRotmat (q : QuatArg) (s : State) : Host.Outcome State Fault Refusal :=
  match quatOrientation q with
  | some o => .next (s.start.deliver (.matrix (rotationMatrix o)))
  | none => .refused .orientationOutsideDomain

end Sys2Proof.Machine
end

