-- ==== Sys2Proof/Machine/Codec.lean ====
section
/-! DEFINITION. The Frame Codec (spec/41_frame_codec.md): `ENCODE` and `DECODE`. -/

namespace Sys2Proof.Machine

/-- A decoded message and its diagnostic (R94, R96). -/
structure Decoded where
  msg   : Message
  crcOk : Bool
  deriving DecidableEq, Repr

/-- `ENCODE` (R90): the frame of R50, or the exception; the size test comes first and uses `size` (R91). -/
def encodeFrame (p : CrcParams) (messageId : Byte) (payload : List Byte) (isResponse : Bool) : Except Exc (List Byte) :=
  let size := 1 + payload.length + 2
  if sizeMax < size then .error (.payloadTooLarge payload.length)
  else .ok ([sentStart] ++ le16Bytes (makeHeader size isResponse) ++ [messageId] ++ payload
    ++ le16Bytes (crc16 p (messageId :: payload)) ++ [sentEnd])

/-- `DECODE` (R94): the checks in the order of R178; the checksum never rejects (R97). -/
def decodeFrame (p : CrcParams) (d : List Byte) : Except NoMessage Decoded :=
  if d.length < minBuf then .error .tooShort
  else if byteAt d 0 ≠ sentStart then .error .badStart
  else
    let header := le16 (byteAt d 1) (byteAt d 2)
    let n := headerPayloadLen header
    let endOff := 4 + n + 2
    if d.length ≤ endOff then .error .truncated
    else if byteAt d endOff ≠ sentEnd then .error .badEnd
    else
      let messageId := byteAt d 3
      let payload := slice d 4 (4 + n)
      let wireCrc := le16 (byteAt d (4 + n)) (byteAt d (5 + n))
      .ok ⟨⟨messageId, payload, headerIsResponse header⟩, crcOk p messageId payload wireCrc⟩

/-- `DECODE`'s result as the caller sees it: the cause of "none" is not shown (R94, R172). -/
def decodedResult (r : Except NoMessage Decoded) : Result :=
  match r with
  | .ok d => .decoded (some d.msg) (some d.crcOk)
  | .error _ => .decoded none none

/-- `ENCODE` (R90, R171). -/
def execEncode (messageId : Byte) (payload : List Byte) (isResponse : Bool) (s : State) : Host.Outcome State Fault Refusal :=
  match encodeFrame s.params.crc messageId payload isResponse with
  | .ok f => .next (s.start.deliver (.frame f))
  | .error e => .next (s.raise e).afterException

/-- `DECODE` (R94). -/
def execDecode (data : List Byte) (s : State) : Host.Outcome State Fault Refusal :=
  .next (s.start.deliver (decodedResult (decodeFrame s.params.crc data)))

end Sys2Proof.Machine
end

