-- ==== Sys2Proof/Machine/Reassembler.lean ====
section
/-! DEFINITION. The Stream Reassembler (spec/42_reassembler.md): `FEED`. -/

namespace Sys2Proof.Machine

/-- The least index that holds the start sentinel (step 2a of R110, R113). -/
def findStart : List Byte → Option Nat
  | [] => none
  | b :: bs => if b = sentStart then some 0 else (findStart bs).map (· + 1)

/-- What one pass of the loop of R110 does. -/
inductive Pass where
  /-- The loop exits, leaving this buffer. -/
  | stop (why : LoopExit) (buf : List Byte)
  /-- A candidate was cut (step 2e): the buffer after it, and what `DECODE` made of it (step 2f). -/
  | cut (buf : List Byte) (r : Except NoMessage Decoded)
  deriving Repr

/-- Steps 2c to 2f on a buffer that begins with the start sentinel (R114, R115). -/
def cutCandidate (p : CrcParams) (buf : List Byte) : Except Fault Pass :=
  if buf.length < hdrNeed then .ok (.stop .headerWait buf)
  else do
    let h ← memRead buf 1 2
    let total := headerTotal (le16 (byteAt h 0) (byteAt h 1))
    if buf.length < total then .ok (.stop .frameWait buf)
    else do
      let cand ← memRead buf 0 total
      let rest ← bufDrop buf total
      .ok (.cut rest (decodeFrame p cand))

/-- One pass: the loop condition, then steps 2a and 2b (R112, R113), then the candidate. -/
def feedPass (p : CrcParams) (buf : List Byte) : Except Fault Pass :=
  if buf.length < minBuf then .ok (.stop .short buf)
  else
    match findStart buf with
    | none => .ok (.stop .desync bufClear)
    | some i => do
      let aligned ← bufDrop buf i
      cutCandidate p aligned

/-- Step 2f: emit a message, drop a failed candidate silently (R115). -/
def collect (out : List Decoded) (r : Except NoMessage Decoded) : List Decoded :=
  match r with
  | .ok d => out ++ [d]
  | .error _ => out

/-- The loop of R110, at most `fuel` passes; R119 says how many it can take. -/
def feedLoop (p : CrcParams) : Nat → List Byte → List Decoded → Except Fault (List Byte × List Decoded)
  | 0, _, _ => .error .loopBound
  | fuel + 1, buf, out =>
    match feedPass p buf with
    | .error f => .error f
    | .ok (.stop _ b) => .ok (b, out)
    | .ok (.cut b r) => feedLoop p fuel b (collect out r)

/-- The passes the loop may take on a buffer: "at most `len(BUF) / 4 + 1` times" (R119). -/
def loopFuel (buf : List Byte) : Nat := buf.length / 4 + 1

/-- `FEED` of one piece: step 1 appends it, step 2 loops (R110, R111). -/
def feedPiece (p : CrcParams) (buf piece : List Byte) (out : List Decoded) : Except Fault (List Byte × List Decoded) :=
  feedLoop p (loopFuel (bufAppend buf piece)) (bufAppend buf piece) out

/-- The longest piece of a chunk the build takes into `buf` at once, none for no limit (R8, R211): `MAX_CHUNK` bytes, and what `BUF_CAP`
leaves beside the bytes held. Where that is nothing the piece is one byte all the same: "a model holds it as a finite list of bytes of
any length" (R30). Log entry 8. -/
def pieceRoom (p : Params) (buf : List Byte) : Option Nat :=
  match p.maxChunk, p.bufCap with
  | none, none => none
  | some k, none => some (max 1 k)
  | none, some c => some (max 1 (c - buf.length))
  | some k, some c => some (max 1 (min k (c - buf.length)))

/-- How many bytes of a chunk the build takes into `buf` as the next piece: all of it where they fit. -/
def pieceLength (p : Params) (buf chunk : List Byte) : Nat :=
  match pieceRoom p buf with
  | none => chunk.length
  | some k => min k chunk.length

/-- A chunk piece by piece, in order, no byte dropped: a build with a limit takes "a long chunk in pieces rather than drop bytes"
(92_eei_decisions.md D7). Every piece but that of the empty chunk takes a byte, so `fuel` is at least the bytes still to take. -/
def feedPieces (p : Params) : Nat → List Byte → List Byte → List Decoded → Except Fault (List Byte × List Decoded)
  | 0, buf, chunk, out => feedPiece p.crc buf chunk out
  | fuel + 1, buf, chunk, out =>
    match feedPiece p.crc buf (chunk.take (pieceLength p buf chunk)) out with
    | .error f => .error f
    | .ok (b, o) =>
      if chunk.length ≤ pieceLength p buf chunk then .ok (b, o)
      else feedPieces p fuel b (chunk.drop (pieceLength p buf chunk)) o

/-- `FEED` on a buffer: the buffer and the messages it leaves (R110). -/
def feedAll (p : Params) (buf chunk : List Byte) : Host.Outcome (List Byte × List Decoded) Fault Refusal :=
  match feedPieces p chunk.length buf chunk [] with
  | .error f => .fault f
  | .ok r => .next r

/-- The messages and their side list (R116). -/
def messagesResult (out : List Decoded) : Result := .messages (out.map (·.msg)) (out.map (·.crcOk))

/-- `FEED` (R110): no routing, no event. -/
def execFeed (chunk : List Byte) (s : State) : Host.Outcome State Fault Refusal :=
  andThen (feedAll s.params s.buf chunk) fun r => .next ((s.start.setBuf r.1).deliver (messagesResult r.2))

end Sys2Proof.Machine
end

