-- ==== Sys2Proof/Machine/Router.lean ====
section
/-! DEFINITION. The Session Message Router (spec/44_router.md): `ROUTE`, `SFEED`, `LATEST_RD`, `SUBSCRIBE`. -/

namespace Sys2Proof.Machine

/-- The dispatch rule of R150, keyed on the message id alone: it reads neither `is_response` nor `crc_ok` (R161).
`LATEST` is written before the observer is notified (R151), whether or not the value changed (R160). -/
def routeMessage (m : Message) (s : State) : State :=
  if m.messageId = msgData then
    match odecode m.payload with
    | some o => (s.setLatest o).notify o
    | none => s
  else if m.messageId = msgControl then
    match m.payload with
    | code :: _ => s.emit (.statusEvt code)
    | [] => s
  else s

/-- Route decoded messages in order (R155, R156). -/
def routeAll : List Decoded → State → State
  | [], s => s
  | d :: ds, s => routeAll ds (routeMessage d.msg s)

/-- One message through the router, as an operation: it returns nothing (R150). -/
def routeOp (m : Message) (s : State) : State := routeMessage m s.start

/-- One chunk through the reassembler and then the router, as an operation (R155): routing comes after the loop (R156). -/
def sfeedOp (chunk : List Byte) (s : State) : Host.Outcome State Fault Refusal :=
  andThen (feedAll s.params s.buf chunk) fun r => .next ((routeAll r.2 (s.start.setBuf r.1)).deliver (messagesResult r.2))

/-- `ROUTE` (R150). -/
def execRoute (m : Message) (s : State) : Host.Outcome State Fault Refusal := .next (routeOp m s)

/-- `SFEED` (R155). -/
def execSfeed (chunk : List Byte) (s : State) : Host.Outcome State Fault Refusal := sfeedOp chunk s

/-- `LATEST_RD` (R157): `LATEST`, unchanged. -/
def execLatestRd (s : State) : Host.Outcome State Fault Refusal :=
  .next (s.start.deliver (orientationResult s.latest))

/-- `SUBSCRIBE` (R158): the last registered handle wins; nothing is delivered. -/
def execSubscribe (h : Handle) (s : State) : Host.Outcome State Fault Refusal := .next (s.start.setObs h)

end Sys2Proof.Machine
end

