-- ==== Sys2Proof/Machine/Wire.lean ====
section
/-! DEFINITION. The wire-format rows of spec/opcode_table.json. They are no operations of R19: each is a constant that stands in one
field of a frame. The model runs such a row as the transaction that hands the field to the unit of the block that reads it. The framing
fields (header, sentinels) are read by the reassembler: the bytes arrive on the stream (`SFEED`, R155). The message id, the control
code and the subtype tag are read by the router: the message that carries them is routed (`ROUTE`, R150). Log entry 2. -/

namespace Sys2Proof.Machine

/-- A frame header arrives, low byte first (R36, R51). -/
def execFrameHeader (header : U16) (s : State) : Host.Outcome State Fault Refusal := sfeedOp (le16Bytes header) s

/-- The start sentinel arrives (R57). -/
def execSentStart (s : State) : Host.Outcome State Fault Refusal := sfeedOp [sentStart] s

/-- The end sentinel arrives (R57). -/
def execSentEnd (s : State) : Host.Outcome State Fault Refusal := sfeedOp [sentEnd] s

/-- A message with id 124 is routed: the default arm, nothing happens (R60, R154). -/
def execMsgEnable (payload : List Byte) (isResponse : Bool) (s : State) : Host.Outcome State Fault Refusal :=
  .next (routeOp ⟨msgEnable, payload, isResponse⟩ s)

/-- A message with id 194 is routed (R60, R151). -/
def execMsgData (payload : List Byte) (isResponse : Bool) (s : State) : Host.Outcome State Fault Refusal :=
  .next (routeOp ⟨msgData, payload, isResponse⟩ s)

/-- A message with id 195 is routed (R60, R153). -/
def execMsgControl (payload : List Byte) (isResponse : Bool) (s : State) : Host.Outcome State Fault Refusal :=
  .next (routeOp ⟨msgControl, payload, isResponse⟩ s)

/-- A control message with code 0, attach, is routed (R61, R153). -/
def execCtrlAttach (rest : List Byte) (isResponse : Bool) (s : State) : Host.Outcome State Fault Refusal :=
  .next (routeOp ⟨msgControl, codeAttach :: rest, isResponse⟩ s)

/-- A control message with code 1, detach, is routed (R61, R153). -/
def execCtrlDetach (rest : List Byte) (isResponse : Bool) (s : State) : Host.Outcome State Fault Refusal :=
  .next (routeOp ⟨msgControl, codeDetach :: rest, isResponse⟩ s)

/-- A control message with code 2, attach-success, is routed (R61, R153). -/
def execCtrlAttachSuccess (rest : List Byte) (isResponse : Bool) (s : State) : Host.Outcome State Fault Refusal :=
  .next (routeOp ⟨msgControl, codeAttachSuccess :: rest, isResponse⟩ s)

/-- A control message with code 3, detach-success, is routed (R61, R153). -/
def execCtrlDetachSuccess (rest : List Byte) (isResponse : Bool) (s : State) : Host.Outcome State Fault Refusal :=
  .next (routeOp ⟨msgControl, codeDetachSuccess :: rest, isResponse⟩ s)

/-- A control message with code 4, keep-alive, is routed (R61, R153). -/
def execCtrlKeepAlive (rest : List Byte) (isResponse : Bool) (s : State) : Host.Outcome State Fault Refusal :=
  .next (routeOp ⟨msgControl, codeKeepAlive :: rest, isResponse⟩ s)

/-- A spatial-audio-data message with the orientation subtype tag is routed (R62, R151). -/
def execSubtypeOrientation (rest : List Byte) (isResponse : Bool) (s : State) : Host.Outcome State Fault Refusal :=
  .next (routeOp ⟨msgData, subtypeOri :: rest, isResponse⟩ s)

end Sys2Proof.Machine
end

