-- ==== Sys2Proof/Machine/Dispatch.lean ====
section
/-! DEFINITION. One arm per operation. -/

namespace Sys2Proof.Machine

def exec (i : Instr) (s : State) : Host.Outcome State Fault Refusal :=
  match i with
  -- spec/30_encoding.md R66: the twelve operations
  | .crc16 data => Sys2Proof.Machine.execCrc16 data s
  | .encode mid payload resp => Sys2Proof.Machine.execEncode mid payload resp s
  | .decode data => Sys2Proof.Machine.execDecode data s
  | .feed chunk => Sys2Proof.Machine.execFeed chunk s
  | .odecode payload => Sys2Proof.Machine.execOdecode payload s
  | .euler q => Sys2Proof.Machine.execEuler q s
  | .rotmat q => Sys2Proof.Machine.execRotmat q s
  | .route m => Sys2Proof.Machine.execRoute m s
  | .sfeed chunk => Sys2Proof.Machine.execSfeed chunk s
  | .latestRd => Sys2Proof.Machine.execLatestRd s
  | .subscribe h => Sys2Proof.Machine.execSubscribe h s
  | .reset => Sys2Proof.Machine.execReset s
  -- spec/30_encoding.md R67: the reserved select codes
  | .reserved12 => Sys2Proof.Machine.execReserved12 s
  | .reserved13 => Sys2Proof.Machine.execReserved13 s
  | .reserved14 => Sys2Proof.Machine.execReserved14 s
  | .reserved15 => Sys2Proof.Machine.execReserved15 s
  -- the wire-format rows of spec/opcode_table.json
  | .frameHeader header => Sys2Proof.Machine.execFrameHeader header s
  | .sentStart => Sys2Proof.Machine.execSentStart s
  | .sentEnd => Sys2Proof.Machine.execSentEnd s
  | .msgSetSpatialAudioEnable payload resp => Sys2Proof.Machine.execMsgEnable payload resp s
  | .msgSpatialAudioData payload resp => Sys2Proof.Machine.execMsgData payload resp s
  | .msgSpatialAudioControl payload resp => Sys2Proof.Machine.execMsgControl payload resp s
  | .ctrlAttach rest resp => Sys2Proof.Machine.execCtrlAttach rest resp s
  | .ctrlDetach rest resp => Sys2Proof.Machine.execCtrlDetach rest resp s
  | .ctrlAttachSuccess rest resp => Sys2Proof.Machine.execCtrlAttachSuccess rest resp s
  | .ctrlDetachSuccess rest resp => Sys2Proof.Machine.execCtrlDetachSuccess rest resp s
  | .ctrlKeepAlive rest resp => Sys2Proof.Machine.execCtrlKeepAlive rest resp s
  | .subtypeOrientation rest resp => Sys2Proof.Machine.execSubtypeOrientation rest resp s

end Sys2Proof.Machine
end

