-- ==== Sys2Proof/WellFormed.lean ====
section
/-! DEFINITION. Which operation terms lie in the interface's domain (spec/60_exceptions.md R181).
Byte, `u8` and `bool` operands are in their ranges by type; the one operand that can lie outside its domain is the quaternion of
`EULER` and `ROTMAT` (spec/43_orientation.md R144). -/

namespace Sys2Proof

/-- The component is an integer in the `i16` range over 10000 (R144). -/
def Component.inDomain : Component → Bool
  | .grid n => decide (-32768 ≤ n) && decide (n ≤ 32767)
  | .offGrid => false

/-- All four components are raw `i16` values (R144). -/
def QuatArg.inDomain (q : QuatArg) : Bool :=
  q.x.inDomain && q.y.inDomain && q.z.inDomain && q.w.inDomain

/-- The operands lie in the domain of the interface (R181). -/
def Instr.wellFormed : Instr → Bool
  | .crc16 _ => true
  | .encode _ _ _ => true
  | .decode _ => true
  | .feed _ => true
  | .odecode _ => true
  | .euler q => q.inDomain
  | .rotmat q => q.inDomain
  | .route _ => true
  | .sfeed _ => true
  | .latestRd => true
  | .subscribe _ => true
  | .reset => true
  | .reserved12 => true
  | .reserved13 => true
  | .reserved14 => true
  | .reserved15 => true
  | .frameHeader _ => true
  | .sentStart => true
  | .sentEnd => true
  | .msgSetSpatialAudioEnable _ _ => true
  | .msgSpatialAudioData _ _ => true
  | .msgSpatialAudioControl _ _ => true
  | .ctrlAttach _ _ => true
  | .ctrlDetach _ _ => true
  | .ctrlAttachSuccess _ _ => true
  | .ctrlDetachSuccess _ _ => true
  | .ctrlKeepAlive _ _ => true
  | .subtypeOrientation _ _ => true

end Sys2Proof
end

