-- ==== Sys2Proof/Decode.lean ====
section
/-! DEFINITION. From an issued request to the operation it selects, and back.
The select codes are those of spec/30_encoding.md R66 and R67; the wire words are the rows of spec/opcode_table.json whose format
begins `WIRE`. The decoder is total: a request either selects an operation or is rejected by name. -/

namespace Sys2Proof

open Machine

/-- The operation a 4-bit select code names, with the operand lanes it reads (R66, R19).
Codes 12 to 15 are the reserved ones (R67); four bits leave only 15 for the last arm. -/
def decodeOp (sel : BitVec 4) (r : Request) : Instr :=
  match sel.toNat with
  | 0  => .crc16 r.data
  | 1  => .encode r.messageId r.data r.isResponse
  | 2  => .decode r.data
  | 3  => .feed r.data
  | 4  => .odecode r.data
  | 5  => .euler r.quat
  | 6  => .rotmat r.quat
  | 7  => .route ⟨r.messageId, r.data, r.isResponse⟩
  | 8  => .sfeed r.data
  | 9  => .latestRd
  | 10 => .subscribe r.handle
  | 11 => .reset
  | 12 => .reserved12
  | 13 => .reserved13
  | 14 => .reserved14
  | _  => .reserved15

/-- The message-id row of the opcode table (R60). -/
def decodeMessageId (b : Byte) (r : Request) : Except DecodeError Instr :=
  if b = msgEnable then .ok (.msgSetSpatialAudioEnable r.data r.isResponse)
  else if b = msgData then .ok (.msgSpatialAudioData r.data r.isResponse)
  else if b = msgControl then .ok (.msgSpatialAudioControl r.data r.isResponse)
  else .error (.unlistedMessageId b)

/-- The control-code row of the opcode table (R61). -/
def decodeControlCode (b : Byte) (r : Request) : Except DecodeError Instr :=
  if b = codeAttach then .ok (.ctrlAttach r.data r.isResponse)
  else if b = codeDetach then .ok (.ctrlDetach r.data r.isResponse)
  else if b = codeAttachSuccess then .ok (.ctrlAttachSuccess r.data r.isResponse)
  else if b = codeDetachSuccess then .ok (.ctrlDetachSuccess r.data r.isResponse)
  else if b = codeKeepAlive then .ok (.ctrlKeepAlive r.data r.isResponse)
  else .error (.unlistedControlCode b)

/-- The operation a request selects, or why it selects none.
A header word is accepted whatever its unassigned bits are: they are "neither illegal nor hints" (R54). -/
def decode (r : Request) : Except DecodeError Instr :=
  match r.code with
  | .op sel        => .ok (decodeOp sel r)
  | .header16 w    => .ok (.frameHeader w)
  | .byteFirst b   => if b = Machine.sentStart then .ok .sentStart else .error (.notSentStart b)
  | .byteLast b    => if b = Machine.sentEnd then .ok .sentEnd else .error (.notSentEnd b)
  | .messageId b   => decodeMessageId b r
  | .controlCode b => decodeControlCode b r
  | .subtypeTag b  =>
    if b = subtypeOri then .ok (.subtypeOrientation r.data r.isResponse) else .error (.unlistedSubtypeTag b)

/-- The request that issues an operation, operand lanes it does not read at zero (R66). -/
def encode : Instr → Request
  | .crc16 data         => { code := .op 0, data := data }
  | .encode mid p resp  => { code := .op 1, data := p, messageId := mid, isResponse := resp }
  | .decode data        => { code := .op 2, data := data }
  | .feed chunk         => { code := .op 3, data := chunk }
  | .odecode p          => { code := .op 4, data := p }
  | .euler q            => { code := .op 5, quat := q }
  | .rotmat q           => { code := .op 6, quat := q }
  | .route m            => { code := .op 7, data := m.payload, messageId := m.messageId, isResponse := m.isResponse }
  | .sfeed chunk        => { code := .op 8, data := chunk }
  | .latestRd           => { code := .op 9 }
  | .subscribe h        => { code := .op 10, handle := h }
  | .reset              => { code := .op 11 }
  | .reserved12         => { code := .op 12 }
  | .reserved13         => { code := .op 13 }
  | .reserved14         => { code := .op 14 }
  | .reserved15         => { code := .op 15 }
  | .frameHeader w      => { code := .header16 w }
  | .sentStart          => { code := .byteFirst Machine.sentStart }
  | .sentEnd            => { code := .byteLast Machine.sentEnd }
  | .msgSetSpatialAudioEnable p resp => { code := .messageId msgEnable, data := p, isResponse := resp }
  | .msgSpatialAudioData p resp      => { code := .messageId msgData, data := p, isResponse := resp }
  | .msgSpatialAudioControl p resp   => { code := .messageId msgControl, data := p, isResponse := resp }
  | .ctrlAttach rest resp            => { code := .controlCode codeAttach, data := rest, isResponse := resp }
  | .ctrlDetach rest resp            => { code := .controlCode codeDetach, data := rest, isResponse := resp }
  | .ctrlAttachSuccess rest resp     => { code := .controlCode codeAttachSuccess, data := rest, isResponse := resp }
  | .ctrlDetachSuccess rest resp     => { code := .controlCode codeDetachSuccess, data := rest, isResponse := resp }
  | .ctrlKeepAlive rest resp         => { code := .controlCode codeKeepAlive, data := rest, isResponse := resp }
  | .subtypeOrientation rest resp    => { code := .subtypeTag subtypeOri, data := rest, isResponse := resp }

/-- The field a table row's word stands in, from the bits alone.
16 bits are a frame header; a byte that is one of the table's sentinels, message ids or subtype tag is that; any other byte is a
select code in its low four bits. A byte 0 to 4 is both a select code and a control code: read here as the select code. Log entry 3. -/
def tableCode (nbits w : Nat) : CodeWord :=
  let b : Byte := BitVec.ofNat 8 w
  if 8 < nbits then .header16 (BitVec.ofNat 16 w)
  else if b = Machine.sentStart then .byteFirst b
  else if b = Machine.sentEnd then .byteLast b
  else if b = msgEnable ∨ b = msgData ∨ b = msgControl then .messageId b
  else if b = subtypeOri then .subtypeTag b
  else .op (BitVec.ofNat 4 w)

/-- The request whose code word is the table word `w` and whose operand lanes are all zero. -/
def Request.ofTable (nbits w : Nat) : Request := { code := tableCode nbits w }

/-- The instruction the decoder reads from a table word. -/
def decodeTableWord (nbits w : Nat) : Option Instr := (decode (Request.ofTable nbits w)).toOption

/-- The pseudo-operation `CMD_ENABLE(v)` (R69). -/
def cmdEnable (v : Bool) : Instr := .encode msgEnable [if v then 1 else 0] false
/-- The pseudo-operation `CMD_ATTACH` (R69). -/
def cmdAttach : Instr := .encode msgControl [codeAttach] false
/-- The pseudo-operation `CMD_DETACH` (R69). -/
def cmdDetach : Instr := .encode msgControl [codeDetach] false
/-- The pseudo-operation `CMD_KEEPALIVE` (R69). -/
def cmdKeepAlive : Instr := .encode msgControl [codeKeepAlive] false

end Sys2Proof
end

