-- ==== Sys2Proof/Machine/Issue.lean ====
section
/-! DEFINITION. Taking the next operation the caller has issued (spec/20_memory.md R43): the block's counterpart of a fetch. -/

namespace Sys2Proof.Machine

/-- What the block finds at its interface. -/
inductive Issued where
  /-- Nothing is issued: the block is idle (R190). -/
  | idle
  /-- The oldest request is this operation; the state is the one with the request taken. -/
  | op (i : Instr) (s : State)
  /-- The oldest request is rejected by the decoder. -/
  | rejected (e : DecodeError)
  deriving DecidableEq, Repr

/-- Take the oldest request and decode it: operations run one at a time in the order of issue (R43, R44). -/
def takeIssued (s : State) : Issued :=
  match s.requests with
  | [] => .idle
  | r :: rest =>
    match decode r with
    | .ok i => .op i { s with requests := rest }
    | .error e => .rejected e

/-- The caller issues a request ahead of everything still waiting. -/
def issueNext (r : Request) (s : State) : State := { s with requests := r :: s.requests }

end Sys2Proof.Machine
end

