-- ==== Sys2Proof/Machine/Step.lean ====
section
/-! DEFINITION. One step: one operation, performed as one atomic transaction (spec/10_state.md R19, spec/20_memory.md R40). -/

namespace Sys2Proof.Machine

/-- One step: the oldest request is decoded and performed; with none issued the block is idle and holds its state (R190). -/
def step (s : State) : Host.Outcome State Fault Refusal :=
  match takeIssued s with
  | .idle => .next s
  | .op i t => exec i t
  | .rejected e => .refused (.undecodable e)

/-- `s` with the table word `w` issued as the next operation, operand lanes zero. Log entry 1. -/
def State.withFetchWord (s : State) (nbits w : Nat) : State := issueNext (Request.ofTable nbits w) s

end Sys2Proof.Machine
end

