-- ==== Sys2Proof/Safety.lean ====
section
/-! DEFINITION. The terms in which statements speak: resting buffers (spec/42_reassembler.md R118), what a pure operation leaves alone,
streams of frames and of chunks (R120), and the real-valued reference of the numerics (spec/43_orientation.md R133, R138). -/

namespace Sys2Proof.Machine

/-! ### The buffer at rest -/

/-- A buffer a `FEED` may leave (R118): (a) fewer than 6 bytes, or (b) a partial frame that begins with the start sentinel. -/
def Resting (buf : List Byte) : Prop :=
  buf.length < minBuf ∨
    (byteAt buf 0 = sentStart ∧ buf.length < headerTotal (le16 (byteAt buf 1) (byteAt buf 2)))

/-- The chunk is within `MAX_CHUNK` and fits `BUF_CAP` beside the bytes held (R8, R211); true of every chunk with the defaults. -/
def TakenWhole (p : Params) (buf chunk : List Byte) : Prop :=
  (∀ k : Nat, p.maxChunk = some k → chunk.length ≤ k) ∧ (∀ c : Nat, p.bufCap = some c → buf.length + chunk.length ≤ c)

/-- The invariant every step keeps: the buffer is at rest, and a `FEED`'s side list is as long as its messages (R116, R118). -/
def State.Inv (s : State) : Prop :=
  Resting s.buf ∧
    match s.result with
    | .messages ms oks => ms.length = oks.length
    | .decoded m ok => m.isSome = ok.isSome
    | _ => True

/-! ### Frames of statements -/

/-- `t` has the architectural state, the parameters and the issued requests of `s`: only the output ports may differ. -/
def State.SameBlock (s t : State) : Prop :=
  t.buf = s.buf ∧ t.latest = s.latest ∧ t.obs = s.obs ∧ t.params = s.params ∧ t.requests = s.requests

/-- Every byte of the buffer memory, read through its index, is the same in both states. -/
def State.SameMemory (s t : State) : Prop := ∀ a : Nat, t.buf[a]? = s.buf[a]?

/-- The operation changed nothing of the block, raised no event, and handed back `r`. -/
def State.ReturnsOnly (s t : State) (r : Result) : Prop := s.SameBlock t ∧ t.result = r ∧ t.events = []

/-! ### Streams -/

/-- The bytes of a message's frame; none when its payload is too long (R90). -/
def frameOf (p : CrcParams) (m : Message) : List Byte :=
  match encodeFrame p m.messageId m.payload m.isResponse with
  | .ok f => f
  | .error _ => []

/-- The concatenated frames of some messages. -/
def streamOf (p : CrcParams) (ms : List Message) : List Byte := ms.flatMap (frameOf p)

/-- Feed chunks one after the other; the state after the last call, and the messages of all calls in call order (R120).
None when a call does not return. -/
def feedChunks : List (List Byte) → State → Option (State × List Message)
  | [], s => some (s, [])
  | c :: cs, s =>
    match exec (.feed c) s with
    | .next t =>
      match t.result with
      | .messages ms _ => (feedChunks cs t).map fun r => (r.1, ms ++ r.2)
      | _ => none
    | .fault _ => none
    | .refused _ => none

/-- The events the router emits for some messages, given the observer (R150, R156). -/
def eventsOf (obs : Option Handle) (m : Message) : List Event :=
  if m.messageId = msgData then
    match odecode m.payload, obs with
    | some o, some h => [.oriEvt h o]
    | _, _ => []
  else if m.messageId = msgControl then (m.payload.take 1).map .statusEvt
  else []

/-- The orientation a message sets, if the router accepts one from it (R151). -/
def acceptedBy (m : Message) : Option Orientation :=
  if m.messageId = msgData then odecode m.payload else none

/-- `LATEST` after some messages are routed in order: the last accepted orientation, else the old value (R156). -/
def latestAfter (old : Option Orientation) (ms : List Message) : Option Orientation :=
  match (ms.filterMap acceptedBy).getLast? with
  | some o => some o
  | none => old

/-! ### The checksum over unbounded integers -/

/-- The lowest `n` bits of `v` in reverse order: `rev8` and `rev16` of R82. -/
def reverseBits : Nat → Nat → Nat
  | 0, _ => 0
  | n + 1, v => (v % 2) * 2 ^ n + reverseBits n (v / 2)

/-- The inner loop of R82 over unbounded integers, masked to 16 bits as written there. -/
def crcTurns (poly : Nat) : Nat → Nat → Nat
  | 0, crc => crc
  | n + 1, crc =>
    crcTurns poly n (if crc &&& 0x8000 ≠ 0 then ((crc <<< 1) ^^^ poly) &&& 0xFFFF else (crc <<< 1) &&& 0xFFFF)

/-- The outer loop of R82 over unbounded integers. -/
def crcBytes (poly : Nat) (refin : Bool) : List Nat → Nat → Nat
  | [], crc => crc
  | b :: bs, crc => crcBytes poly refin bs (crcTurns poly 8 (crc ^^^ ((if refin then reverseBits 8 b else b) <<< 8)))

/-- The pseudocode of R82 over unbounded integers (R9). -/
def crcPseudocode (p : CrcParams) (data : List Nat) : Nat :=
  let crc := crcBytes p.poly.toNat p.refin data p.init.toNat
  (if p.refout then reverseBits 16 crc else crc) ^^^ p.xorout.toNat

/-! ### Frame fields over unbounded integers -/

/-- The byte at an offset as an integer, 0 past the end. -/
def natAt (d : List Byte) (i : Nat) : Nat := (d.getD i 0).toNat

/-- The `size` field of frame bytes (R51): the byte at offset 1 and the two low bits of the byte at offset 2. -/
def sizeAt (d : List Byte) : Nat := natAt d 1 + 256 * (natAt d 2 % 4)

/-- `payload_len = max(0, size - 3)` (R59). -/
def payloadLenAt (d : List Byte) : Nat := sizeAt d - 3

/-- The signed 16-bit value at offsets `k` and `k + 1`, low byte first (R9, R62). -/
def signed16At (p : List Byte) (k : Nat) : Int :=
  let u : Int := natAt p k + 256 * natAt p (k + 1)
  if u < 32768 then u else u - 65536

/-- Replace the two checksum bytes of a frame (R50). -/
def withChecksumBytes (f : List Byte) (c0 c1 : Byte) : List Byte :=
  (f.set (4 + payloadLenAt f) c0).set (5 + payloadLenAt f) c1

/-! ### The algorithm of the reassembler as a relation -/

/-- The loop of R110, step 2, as the rule writes it: `FeedRun p buf out buf' out'` says that the loop entered with the buffer `buf` and
the messages `out` ends with `buf'` and `out'`. In the last four cases the buffer is `g ++ b`: `g` has no start sentinel and is
dropped (step 2b), `b` begins with one. -/
inductive FeedRun (p : CrcParams) : List Byte → List Decoded → List Byte → List Decoded → Prop where
  /-- The loop condition fails: fewer than 6 bytes. -/
  | short {buf : List Byte} {out : List Decoded} : buf.length < 6 → FeedRun p buf out buf out
  /-- Step 2a: no start sentinel, discard everything. -/
  | noSentinel {buf : List Byte} {out : List Decoded} : 6 ≤ buf.length → (0xFD : Byte) ∉ buf → FeedRun p buf out [] out
  /-- Step 2c: fewer than 3 bytes remain. -/
  | headerWait {g b : List Byte} {out : List Decoded} : 6 ≤ (g ++ b).length → (0xFD : Byte) ∉ g → b.head? = some 0xFD →
      b.length < 3 → FeedRun p (g ++ b) out b out
  /-- Step 2d: a partial frame, wait. -/
  | frameWait {g b : List Byte} {out : List Decoded} : 6 ≤ (g ++ b).length → (0xFD : Byte) ∉ g → b.head? = some 0xFD →
      3 ≤ b.length → b.length < sizeAt b + 4 → FeedRun p (g ++ b) out b out
  /-- Steps 2e and 2f: the candidate decodes; emit the message and go on behind it. -/
  | message {g b b' : List Byte} {out out' : List Decoded} {m : Decoded} : 6 ≤ (g ++ b).length → (0xFD : Byte) ∉ g →
      b.head? = some 0xFD → 3 ≤ b.length → sizeAt b + 4 ≤ b.length → decodeFrame p (b.take (sizeAt b + 4)) = .ok m →
      FeedRun p (b.drop (sizeAt b + 4)) (out ++ [m]) b' out' → FeedRun p (g ++ b) out b' out'
  /-- Steps 2e and 2f: the candidate does not decode; drop it silently and go on behind it. -/
  | dropped {g b b' : List Byte} {out out' : List Decoded} {e : NoMessage} : 6 ≤ (g ++ b).length → (0xFD : Byte) ∉ g →
      b.head? = some 0xFD → 3 ≤ b.length → sizeAt b + 4 ≤ b.length → decodeFrame p (b.take (sizeAt b + 4)) = .error e →
      FeedRun p (b.drop (sizeAt b + 4)) out b' out' → FeedRun p (g ++ b) out b' out'

/-! ### Numbers -/

/-- The rational number a binary64 pattern stands for, none for an infinity or a NaN. -/
def f64Value (f : F64) : Option Rat :=
  let e : Nat := (f >>> 52).toNat % 2048
  let frac : Nat := f.toNat % 2 ^ 52
  let significand : Nat := 2 ^ 52 + frac
  let sign : Rat := if f.msb then -1 else 1
  if e = 2047 then none
  else if e = 0 then some (sign * (frac : Rat) / ((2 ^ 1074 : Nat) : Rat))
  else if e < 1075 then some (sign * (significand : Rat) / ((2 ^ (1075 - e) : Nat) : Rat))
  else some (sign * (significand : Rat) * ((2 ^ (e - 1075) : Nat) : Rat))

/-- `t` is the angle in degrees of the reference `deg(atan2(u, v))` (R138): in (-180, 180], 0 at the origin, 180 on the negative
abscissa. -/
def RefAtan2Deg (u v : Int) (t : ℝ) : Prop := t = Complex.arg ⟨(v : ℝ), (u : ℝ)⟩ * 180 / Real.pi

/-- `t` is the angle in degrees of the reference `deg(asin(n / d))` (R138). -/
def RefAsinDeg (n d : Int) (t : ℝ) : Prop := t = Real.arcsin ((n : ℝ) / (d : ℝ)) * 180 / Real.pi

/-- The `f64` pattern is finite and within `tol` of `t`. -/
def F64Near (tol : ℝ) (f : F64) (t : ℝ) : Prop := ∃ r : Rat, f64Value f = some r ∧ |(r : ℝ) - t| ≤ tol

/-- The numerics record meets its reference within `EULER_TOL = tol` (R138). On the branch cut, ordinate 0 and negative abscissa, it
may answer -180 for 180: "A claim about angles must allow both". -/
def MeetsReference (num : Numerics) (tol : ℝ) : Prop :=
  (∀ (u v : Int) (t : ℝ), RefAtan2Deg u v t →
    F64Near tol (num.deg (num.atan2 u v)) t ∨ (u = 0 ∧ v < 0 ∧ F64Near tol (num.deg (num.atan2 u v)) (-t))) ∧
  (∀ (n d : Int) (t : ℝ), 0 < d → |n| ≤ d → RefAsinDeg n d t → F64Near tol (num.deg (num.asin n d)) t)

end Sys2Proof.Machine
end

