-- ==== Sys2Proof/Certificates/Slice0/Obligations.lean ====
section
/-! DEFINITION. The statements about the model that are to be proved. -/

open Sys2Proof Sys2Proof.Machine

/-! ### Issuing, decoding, stepping -/

/-- The request that issues an operation decodes to that operation, every operand at every value.
The request form is the model's own choice (log entry 1). -/
def Obligations.EncodedRequestDecodesToItsOperation : Prop :=
  ∀ i : Instr, decode (encode i) = .ok i

/-- The select codes 0 to 11 name the twelve operations, operands beside the code; 12 to 15 are the reserved codes.
The numbering is the spec's own (R66, 92_eei_decisions.md D3). -/
def Obligations.SelectCodesNameTheOperations : Prop :=
  ∀ r : Request,
    decode { r with code := .op 0 } = .ok (.crc16 r.data) ∧
    decode { r with code := .op 1 } = .ok (.encode r.messageId r.data r.isResponse) ∧
    decode { r with code := .op 2 } = .ok (.decode r.data) ∧
    decode { r with code := .op 3 } = .ok (.feed r.data) ∧
    decode { r with code := .op 4 } = .ok (.odecode r.data) ∧
    decode { r with code := .op 5 } = .ok (.euler r.quat) ∧
    decode { r with code := .op 6 } = .ok (.rotmat r.quat) ∧
    decode { r with code := .op 7 } = .ok (.route ⟨r.messageId, r.data, r.isResponse⟩) ∧
    decode { r with code := .op 8 } = .ok (.sfeed r.data) ∧
    decode { r with code := .op 9 } = .ok .latestRd ∧
    decode { r with code := .op 10 } = .ok (.subscribe r.handle) ∧
    decode { r with code := .op 11 } = .ok .reset ∧
    decode { r with code := .op 12 } = .ok .reserved12 ∧
    decode { r with code := .op 13 } = .ok .reserved13 ∧
    decode { r with code := .op 14 } = .ok .reserved14 ∧
    decode { r with code := .op 15 } = .ok .reserved15

/-- The wire-format rows of the opcode table decode from their words, and any other word in such a field is rejected by name.
Reading the rows as issued words is the model's choice (log entry 2). -/
def Obligations.WireWordsDecodeToTheirRows : Prop :=
  ∀ (r : Request) (w : U16) (b : Byte),
    decode { r with code := .header16 w } = .ok (.frameHeader w) ∧
    decode { r with code := .byteFirst b } = (if b = 0xFD then .ok .sentStart else .error (.notSentStart b)) ∧
    decode { r with code := .byteLast b } = (if b = 0xDD then .ok .sentEnd else .error (.notSentEnd b)) ∧
    decode { r with code := .messageId b } =
      (if b = 0x7C then .ok (.msgSetSpatialAudioEnable r.data r.isResponse)
       else if b = 0xC2 then .ok (.msgSpatialAudioData r.data r.isResponse)
       else if b = 0xC3 then .ok (.msgSpatialAudioControl r.data r.isResponse)
       else .error (.unlistedMessageId b)) ∧
    decode { r with code := .controlCode b } =
      (if b = 0 then .ok (.ctrlAttach r.data r.isResponse)
       else if b = 1 then .ok (.ctrlDetach r.data r.isResponse)
       else if b = 2 then .ok (.ctrlAttachSuccess r.data r.isResponse)
       else if b = 3 then .ok (.ctrlDetachSuccess r.data r.isResponse)
       else if b = 4 then .ok (.ctrlKeepAlive r.data r.isResponse)
       else .error (.unlistedControlCode b)) ∧
    decode { r with code := .subtypeTag b } =
      (if b = 0x20 then .ok (.subtypeOrientation r.data r.isResponse) else .error (.unlistedSubtypeTag b))

/-- A step performs the oldest issued operation, taken off the queue; a request the decoder rejects is refused. R43 gives the order of
issue; the queue that holds the operations is the model's choice (log entry 1), and so is the refusal of a wire word that is no row of
the opcode table (log entry 2). -/
def Obligations.StepPerformsTheIssuedOperation : Prop :=
  ∀ (s : State) (r : Request) (rest : List Request), s.requests = r :: rest →
    (∀ i : Instr, decode r = .ok i → step s = exec i { s with requests := rest }) ∧
    (∀ e : DecodeError, decode r = .error e → step s = .refused (.undecodable e))

/-- With nothing issued, a step holds the whole state. R190 says that the idle block holds `BUF`, `LATEST` and `OBS`. That there is an
idle step, and that it holds the queue, is the model's choice (log entry 1); so is that it holds the outputs (log entry 4) and the
parameters, which R14 says cannot change (held in the state: log entry 5). -/
def Obligations.IdleStepHoldsTheState : Prop :=
  ∀ s : State, s.requests = [] → step s = .next s

/-! ### Reset -/

/-- The three state elements after reset (R24); the values are the spec's own choice (92_eei_decisions.md D5). -/
def Obligations.ResetStateIsEmpty : Prop :=
  State.reset.buf = [] ∧ State.reset.latest = none ∧ State.reset.obs = none

/-- `RESET` clears the three elements, returns nothing and emits nothing, in every state (R195, R196). The operation is the spec's own
choice (92_eei_decisions.md D5, D23). -/
def Obligations.ResetClearsTheElements : Prop :=
  ∀ s : State, exec .reset s = .next { s with buf := [], latest := none, obs := none, result := .nothing, events := [] }

/-! ### Checksum -/

/-- `CRC16` returns what the pseudocode of R82 over unbounded integers computes, and changes nothing (R80). The algorithm is the spec's
own, from general knowledge (92_eei_decisions.md D1; log entry 6). -/
def Obligations.ChecksumFollowsThePseudocode : Prop :=
  ∀ (data : List Byte) (s : State), ∃ v : U16,
    exec (.crc16 data) s = .next { s with result := .checksum v, events := [] } ∧
    v.toNat = crcPseudocode s.params.crc (data.map BitVec.toNat)

/-- The spec's inference R83: without input reflection one byte can be taken through the table; the entries the rule gives for the default polynomial. -/
def Obligations.ChecksumTableFormAgrees : Prop :=
  (∀ (p : CrcParams) (crc : U16) (b : Byte), p.refin = false → crcByte p crc b = crcByteByTable p crc b) ∧
  (∀ p : CrcParams, p.poly = 0x1021 →
    crcTable p 0 = 0x0000 ∧ crcTable p 1 = 0x1021 ∧ crcTable p 2 = 0x2042 ∧ crcTable p 255 = 0x1EF0)

/-- The spec's inference R84: the empty input, inputs of zero bytes, leading zero bytes and the order of bytes. The second part names the defaults. -/
def Obligations.ChecksumCornerCases : Prop :=
  (∀ p : CrcParams, crc16 p [] = (if p.refout then p.init.reverse else p.init) ^^^ p.xorout) ∧
  crc16 defaultCrc [] = 0x0000 ∧
  (∀ n : Nat, crc16 defaultCrc (List.replicate n 0) = 0x0000) ∧
  (∀ (n : Nat) (data : List Byte), crc16 defaultCrc (List.replicate n 0 ++ data) = crc16 defaultCrc data) ∧
  (∀ (n : Nat) (resp : Bool) (f : List Byte), encodeFrame defaultCrc 0 (List.replicate n 0) resp = .ok f →
    f[4 + n]? = some 0 ∧ f[5 + n]? = some 0) ∧
  crc16 defaultCrc [0x7C, 0x01] = 0x5D15 ∧ crc16 defaultCrc [0x01, 0x7C] = 0x8C2A

/-- With a generator whose lowest bit is set (the default's is), two inputs that differ in one byte have different checksums. This rests
on the bitwise algorithm of R82, which the spec takes from general knowledge (92_eei_decisions.md D1; log entry 6). -/
def Obligations.OneChangedByteChangesTheChecksum : Prop :=
  ∀ (p : CrcParams) (before after : List Byte) (b c : Byte), p.poly.getLsbD 0 = true → b ≠ c →
    crc16 p (before ++ b :: after) ≠ crc16 p (before ++ c :: after)

/-! ### Frame Codec -/

/-- R50, R58: what `ENCODE` answers for every payload of at most 1020 bytes, byte by byte, and that it changes nothing. -/
def Obligations.EncodeAnswersTheFrame : Prop :=
  ∀ (mid : Byte) (payload : List Byte) (resp : Bool) (s : State), payload.length ≤ 1020 →
    ∃ f : List Byte,
      exec (.encode mid payload resp) s = .next { s with result := .frame f, events := [] } ∧
      f.length = payload.length + 7 ∧ 7 ≤ f.length ∧ f.length ≤ 1027 ∧
      f[0]? = some 0xFD ∧ f[f.length - 1]? = some 0xDD ∧
      natAt f 1 = (payload.length + 3) % 256 ∧
      natAt f 2 = (payload.length + 3) / 256 + (if resp then 16 else 0) ∧
      (natAt f 2 ≤ 3 ∨ (16 ≤ natAt f 2 ∧ natAt f 2 ≤ 19)) ∧
      f[3]? = some mid ∧
      (f.drop 4).take payload.length = payload ∧
      natAt f (4 + payload.length) = (crc16 s.params.crc (mid :: payload)).toNat % 256 ∧
      natAt f (5 + payload.length) = (crc16 s.params.crc (mid :: payload)).toNat / 256

/-- R171, R103: `ENCODE` of 1021 bytes or more takes the exception; nothing else changes and no event is emitted. That the failure
carries the length is the spec's own choice (92_eei_decisions.md D20; log entry 15). -/
def Obligations.EncodeTooLargeTakesTheException : Prop :=
  ∀ (mid : Byte) (payload : List Byte) (resp : Bool) (s : State), 1021 ≤ payload.length →
    exec (.encode mid payload resp) s =
      .next { s with result := .raised (.payloadTooLarge payload.length), events := [] }

/-- Over all operations, only `ENCODE` of 1021 bytes or more raises (R170); that it records the payload length is the spec's own choice
(92_eei_decisions.md D20). -/
def Obligations.OnlyOversizedEncodeRaises : Prop :=
  ∀ (i : Instr) (s t : State) (e : Exc), exec i s = .next t →
    (t.result = .raised e ↔
      ∃ (mid : Byte) (payload : List Byte) (resp : Bool),
        i = .encode mid payload resp ∧ 1021 ≤ payload.length ∧ e = .payloadTooLarge payload.length)

/-- The round trip (R101, over the whole range of 90_conflicts.md C4): decoding an encoded frame gives back the message, with `crc_ok` true, whatever the checksum parameters. -/
def Obligations.EncodeThenDecodeGivesTheMessage : Prop :=
  ∀ (mid : Byte) (payload : List Byte) (resp : Bool) (s : State), payload.length ≤ 1020 →
    ∃ (f : List Byte) (t u : State),
      exec (.encode mid payload resp) s = .next t ∧ t.result = .frame f ∧
      exec (.decode f) t = .next u ∧ u.result = .decoded (some ⟨mid, payload, resp⟩) (some true)

/-- R94, R95: `DECODE` answers a message exactly when its four tests pass, its fields are the frame's, and it changes nothing. -/
def Obligations.DecodeAcceptsExactlyTheTestedFrames : Prop :=
  ∀ (d : List Byte) (s : State), ∃ (m : Option Message) (ok : Option Bool),
    exec (.decode d) s = .next { s with result := .decoded m ok, events := [] } ∧
    (m.isSome = true ↔ 6 ≤ d.length ∧ d[0]? = some 0xFD ∧ d[4 + payloadLenAt d + 2]? = some 0xDD) ∧
    (m = none → ok = none) ∧
    (∀ msg : Message, m = some msg →
      d[3]? = some msg.messageId ∧
      msg.payload = (d.drop 4).take (payloadLenAt d) ∧ msg.payload.length = payloadLenAt d ∧ msg.payload.length ≤ 1020 ∧
      (msg.isResponse = true ↔ natAt d 2 / 16 % 2 = 1) ∧
      ok = some (decide ((crc16 s.params.crc (msg.messageId :: msg.payload)).toNat =
        natAt d (4 + payloadLenAt d) + 256 * natAt d (5 + payloadLenAt d))))

/-- R97: whatever the two checksum bytes are, the same message comes out. -/
def Obligations.DecodeNeverRejectsOnChecksum : Prop :=
  ∀ (d : List Byte) (c0 c1 : Byte) (s t : State) (m : Message) (ok : Option Bool),
    exec (.decode d) s = .next t → t.result = .decoded (some m) ok →
    ∃ (u : State) (ok' : Option Bool),
      exec (.decode (withChecksumBytes d c0 c1)) s = .next u ∧ u.result = .decoded (some m) ok'

/-- The spec's inference R54: `ENCODE` writes the unassigned header bits as 0; `DECODE` and `FEED` answer the same whatever those bits are.
`x` is any change to them: bits 10, 11, 13, 14 and 15 are the bits `0xEC` of the byte at offset 2. -/
def Obligations.UnassignedHeaderBitsAreIgnored : Prop :=
  (∀ (p : CrcParams) (mid : Byte) (payload f : List Byte) (resp : Bool),
    encodeFrame p mid payload resp = .ok f → f.getD 2 0 &&& 0xEC = 0) ∧
  (∀ (d : List Byte) (x : Byte) (s : State), x &&& 0x13 = 0 →
    exec (.decode (d.set 2 (d.getD 2 0 ^^^ x))) s = exec (.decode d) s) ∧
  (∀ (d : List Byte) (x : Byte) (s : State), x &&& 0x13 = 0 → s.buf = [] → d[0]? = some 0xFD → TakenWhole s.params s.buf d →
    ∃ t u : State, exec (.feed d) s = .next t ∧ exec (.feed (d.set 2 (d.getD 2 0 ^^^ x))) s = .next u ∧
      u.result = t.result)

/-- The spec's inference R98: bytes after the end sentinel are ignored. -/
def Obligations.DecodeIgnoresTrailingBytes : Prop :=
  ∀ (d tail : List Byte) (s t : State) (m : Message) (ok : Option Bool),
    exec (.decode d) s = .next t → t.result = .decoded (some m) ok → exec (.decode (d ++ tail)) s = .next t

/-- The spec's inference R99: a `size` below 3 reads as an empty payload when `DECODE` is called directly; the candidate `FEED` cuts never decodes. -/
def Obligations.ShortSizeDecodesOnlyDirectly : Prop :=
  ∀ (d : List Byte) (s : State), sizeAt d < 3 →
    (7 ≤ d.length → d[0]? = some 0xFD → d[6]? = some 0xDD →
      ∃ (ok : Bool), exec (.decode d) s =
        .next { s with result := .decoded (some ⟨d.getD 3 0, [], decide (natAt d 2 / 16 % 2 = 1)⟩) (some ok), events := [] }) ∧
    (d.length = sizeAt d + 4 → exec (.decode d) s = .next { s with result := .decoded none none, events := [] })

/-! ### Stream Reassembler -/

/-- The spec's inference R119: every pass that does not exit removes at least 4 bytes, and `FEED` returns, for every buffer, every chunk
and every build; it writes `BUF` and its outputs only. The last two clauses say how a build with limits takes a chunk, which is the
model's choice (log entry 8): whole where it is within the limits, else a piece and then the rest, no byte dropped, each piece within
the limits where they leave room for a byte. -/
def Obligations.FeedAlwaysReturns : Prop :=
  (∀ (p : CrcParams) (buf b : List Byte) (r : Except NoMessage Decoded),
    feedPass p buf = .ok (.cut b r) → b.length + 4 ≤ buf.length) ∧
  (∀ (chunk : List Byte) (s : State),
    ∃ (b : List Byte) (ms : List Message) (oks : List Bool),
      exec (.feed chunk) s = .next { s with buf := b, result := .messages ms oks, events := [] } ∧ ms.length = oks.length) ∧
  (∀ (p : Params) (buf chunk : List Byte), TakenWhole p buf chunk → pieceLength p buf chunk = chunk.length) ∧
  (∀ (chunk : List Byte) (s : State) (k : Nat), k = pieceLength s.params s.buf chunk → k < chunk.length →
    1 ≤ k ∧ (∀ m : Nat, s.params.maxChunk = some m → 1 ≤ m → k ≤ m) ∧
    (∀ c : Nat, s.params.bufCap = some c → s.buf.length < c → s.buf.length + k ≤ c) ∧
    ∃ (t u : State) (ms ms' : List Message) (oks oks' : List Bool),
      exec (.feed (chunk.take k)) s = .next t ∧ t.result = .messages ms oks ∧
      exec (.feed (chunk.drop k)) t = .next u ∧ u.result = .messages ms' oks' ∧
      exec (.feed chunk) s = .next { u with result := .messages (ms ++ ms') (oks ++ oks') })

/-- The spec's inference R118: the buffer a `FEED` leaves, whatever was in it and whatever was fed; its bound; and the bound inside one `FEED`. -/
def Obligations.FeedLeavesARestingBuffer : Prop :=
  ∀ (chunk : List Byte) (s t : State), exec (.feed chunk) s = .next t →
    (t.buf.length < 6 ∨ (6 ≤ t.buf.length ∧ t.buf[0]? = some 0xFD ∧ t.buf.length < sizeAt t.buf + 4)) ∧
    t.buf.length ≤ 1026 ∧
    (∀ more : List Byte, (bufAppend t.buf more).length ≤ 1026 + more.length)

/-- R110, R111, R113, R115: `FEED` appends the chunk, runs the loop of the rule's algorithm on the buffer, and returns what it
collected; it always answers, and it changes nothing else. -/
def Obligations.FeedRunsTheAlgorithm : Prop :=
  ∀ (chunk : List Byte) (s : State), TakenWhole s.params s.buf chunk →
    ∃ (b : List Byte) (out : List Decoded), FeedRun s.params.crc (s.buf ++ chunk) [] b out ∧
      exec (.feed chunk) s = .next { s with
        buf := b, result := .messages (out.map (·.msg)) (out.map (·.crcOk)), events := [] }

/-- R175: with 6 or more bytes buffered and no start sentinel among them the buffer is cleared, with no error.
With fewer than 6 bytes they stay, whatever they are (R112). -/
def Obligations.DesyncClearsTheBuffer : Prop :=
  ∀ (chunk : List Byte) (s : State), TakenWhole s.params s.buf chunk →
    (6 ≤ (s.buf ++ chunk).length → (0xFD : Byte) ∉ s.buf ++ chunk →
      exec (.feed chunk) s = .next { s with buf := [], result := .messages [] [], events := [] }) ∧
    ((s.buf ++ chunk).length < 6 →
      exec (.feed chunk) s = .next { s with buf := s.buf ++ chunk, result := .messages [] [], events := [] })

/-- R121: garbage without a start sentinel, then a frame: exactly the frame's message, and nothing left. -/
def Obligations.GarbageBeforeAFrameIsDiscarded : Prop :=
  ∀ (garbage : List Byte) (m : Message) (s : State), s.buf = [] →
    TakenWhole s.params s.buf (garbage ++ frameOf s.params.crc m) → (0xFD : Byte) ∉ garbage → m.payload.length ≤ 1020 →
    exec (.feed (garbage ++ frameOf s.params.crc m)) s = .next { s with result := .messages [m] [true], events := [] }

/-- R115: a candidate that does not decode is consumed whole: feeding it and what follows is feeding what follows. -/
def Obligations.FailedCandidateIsLostWhole : Prop :=
  ∀ (d : List Byte) (s : State), TakenWhole s.params s.buf d → s.buf = [] → 6 ≤ d.length → d[0]? = some 0xFD →
    sizeAt d + 4 ≤ d.length → (decodeFrame s.params.crc (d.take (sizeAt d + 4))).toOption = none →
    ∃ t : State, exec (.feed d) s = .next t ∧ exec (.feed (d.drop (sizeAt d + 4))) s = .next t

/-- The spec's inference R117: feeding nothing to a buffer at rest returns no message and changes nothing. -/
def Obligations.FeedOfNothingChangesNothing : Prop :=
  ∀ s : State, Resting s.buf →
    exec (.feed []) s = .next { s with result := .messages [] [], events := [] }

/-- R122: a frame fed one byte at a time gives no message before its last byte and exactly one with it. That this holds in a build
without room too is the model's choice (log entry 8). -/
def Obligations.FrameByteByByteGivesOneMessageAtTheEnd : Prop :=
  ∀ (m : Message) (s : State), s.buf = [] → m.payload.length ≤ 1020 →
    (∀ k : Nat, k < (frameOf s.params.crc m).length →
      ∃ t : State, feedChunks (((frameOf s.params.crc m).take k).map ([·])) s = some (t, []) ∧
        t.buf = (frameOf s.params.crc m).take k) ∧
    (∃ t : State, feedChunks ((frameOf s.params.crc m).map ([·])) s = some (t, [m]) ∧ t.buf = [])

/-- R120: a stream of valid frames, however it is cut into chunks, gives the messages of its frames in order and leaves `BUF` empty.
That a build with limits takes each chunk in pieces is R211; the pieces are the model's choice (log entry 8). -/
def Obligations.ChunkingOfFramesDoesNotMatter : Prop :=
  ∀ (ms : List Message) (chunks : List (List Byte)) (s : State), s.buf = [] →
    (∀ m ∈ ms, m.payload.length ≤ 1020) → chunks.flatten = streamOf s.params.crc ms →
    ∃ t : State, feedChunks chunks s = some (t, ms) ∧ t.buf = []

/-- The remark at the end of 42_reassembler.md, which the spec does not assert: for EVERY byte stream, valid frames or not, the
messages depend only on the concatenation of the chunks; in a build with limits also (its pieces: log entry 8). -/
def Obligations.MessagesDependOnlyOnTheStream : Prop :=
  ∀ (chunks chunks' : List (List Byte)) (s : State), s.buf = [] → chunks.flatten = chunks'.flatten →
    ∃ (t t' : State) (ms : List Message), feedChunks chunks s = some (t, ms) ∧ feedChunks chunks' s = some (t', ms)

/-! ### Router -/

/-- R150: every arm of the dispatch rule, with everything that stays as it was. -/
def Obligations.RouteDispatchesOnTheMessageId : Prop :=
  ∀ (payload : List Byte) (resp : Bool) (s : State),
    (∀ o : Orientation, odecode payload = some o →
      (∀ h : Handle, s.obs = some h → exec (.route ⟨194, payload, resp⟩) s =
        .next { s with latest := some o, result := .nothing, events := [.oriEvt h o] }) ∧
      (s.obs = none → exec (.route ⟨194, payload, resp⟩) s =
        .next { s with latest := some o, result := .nothing, events := [] })) ∧
    (odecode payload = none → exec (.route ⟨194, payload, resp⟩) s = .next { s with result := .nothing, events := [] }) ∧
    (∀ (code : Byte) (rest : List Byte), payload = code :: rest →
      exec (.route ⟨195, payload, resp⟩) s = .next { s with result := .nothing, events := [.statusEvt code] }) ∧
    (payload = [] → exec (.route ⟨195, payload, resp⟩) s = .next { s with result := .nothing, events := [] }) ∧
    (∀ mid : Byte, mid ≠ 194 → mid ≠ 195 →
      exec (.route ⟨mid, payload, resp⟩) s = .next { s with result := .nothing, events := [] })

/-- `SFEED` is `FEED` and then the router on each message in order: the events in message order, one for each accepted
orientation and each non-empty control message, `LATEST` ending as the last accepted orientation
(R155, R156). Routing after the loop is the spec's own choice (92_eei_decisions.md D11). -/
def Obligations.SfeedIsFeedThenRoute : Prop :=
  ∀ (chunk : List Byte) (s : State),
    ∃ (b : List Byte) (ms : List Message) (oks : List Bool),
      exec (.feed chunk) s = .next { s with buf := b, result := .messages ms oks, events := [] } ∧
      exec (.sfeed chunk) s = .next { s with
        buf := b, latest := latestAfter s.latest ms, result := .messages ms oks, events := ms.flatMap (eventsOf s.obs) }

/-- The spec's inference R161: the router reads neither `is_response` nor the checksum: a frame with wrong checksum bytes is routed like the right one. -/
def Obligations.RouterIgnoresResponseBitAndChecksum : Prop :=
  (∀ (mid : Byte) (payload : List Byte) (resp resp' : Bool) (s : State),
    exec (.route ⟨mid, payload, resp⟩) s = exec (.route ⟨mid, payload, resp'⟩) s) ∧
  (∀ (m : Message) (c0 c1 : Byte) (s : State), TakenWhole s.params s.buf (frameOf s.params.crc m) → s.buf = [] → m.payload.length ≤ 1020 →
    ∃ (t : State) (ok : Bool), exec (.sfeed (frameOf s.params.crc m)) s = .next t ∧ t.result = .messages [m] [true] ∧
      exec (.sfeed (withChecksumBytes (frameOf s.params.crc m) c0 c1)) s = .next { t with result := .messages [m] [ok] })

/-- R157: `LATEST_RD` returns `LATEST` and changes nothing; `LATEST` takes a new value only from an accepted orientation message, and
only `RESET` sets it back to none (R157). The binary64 rendering delivered beside it (log entry 17) and the two wire rows that route
a message (log entry 2) are the model's choices. -/
def Obligations.LatestRdReturnsLatest : Prop :=
  (∀ s : State, exec .latestRd s =
    .next { s with result := .orientation s.latest (s.latest.map renderOrientation), events := [] }) ∧
  State.reset.latest = none ∧
  (∀ (i : Instr) (s t : State) (o : Orientation), exec i s = .next t → t.latest = some o → s.latest ≠ some o →
    ∃ m : Message, acceptedBy m = some o ∧
      (i = .route m ∨ (∃ ms oks, t.result = .messages ms oks ∧ m ∈ ms) ∨
        (∃ p r, m = ⟨194, p, r⟩ ∧ i = .msgSpatialAudioData p r) ∨
        (∃ p r, m = ⟨194, 32 :: p, r⟩ ∧ i = .subtypeOrientation p r))) ∧
  (∀ (i : Instr) (s t : State), exec i s = .next t → s.latest ≠ none → t.latest = none → i = .reset)

/-- R43 (1): a `LATEST_RD` issued after an `SFEED` sees every orientation that `SFEED` accepted, the last one winning. The request queue
(log entry 1) and the rendering (log entry 17) are the model's choices. -/
def Obligations.LatestRdSeesTheSfeedBeforeIt : Prop :=
  ∀ (chunk : List Byte) (rest : List Request) (s : State),
    s.requests = encode (.sfeed chunk) :: encode .latestRd :: rest →
    ∃ (t u : State) (ms : List Message) (oks : List Bool),
      step s = .next t ∧ t.result = .messages ms oks ∧ step t = .next u ∧
      u.result = .orientation (latestAfter s.latest ms) ((latestAfter s.latest ms).map renderOrientation)

/-- R158: `SUBSCRIBE` fills the single slot, the last registration winning; nothing is delivered; a notification carries the handle
in the slot and no other; only `RESET` empties the slot. -/
def Obligations.SubscribeFillsTheObserverSlot : Prop :=
  (∀ (h : Handle) (s : State), exec (.subscribe h) s = .next { s with obs := some h, result := .nothing, events := [] }) ∧
  (∀ (h h' : Handle) (s t u : State), exec (.subscribe h) s = .next t → exec (.subscribe h') t = .next u → u.obs = some h') ∧
  (∀ (i : Instr) (s t : State) (h : Handle) (o : Orientation), exec i s = .next t → .oriEvt h o ∈ t.events → s.obs = some h) ∧
  (∀ (i : Instr) (s t : State), exec i s = .next t → s.obs ≠ none → t.obs = none → i = .reset)

/-! ### Orientation -/

/-- R130 to R132: `ODECODE` accepts exactly 9 bytes or more that begin with the tag, and reads four signed little-endian values in
the order x, y, z, w. It changes nothing. The binary64 rendering delivered beside them is the model's choice (log entry 17). -/
def Obligations.OdecodeReadsFourSignedValues : Prop :=
  ∀ (p : List Byte) (s : State), ∃ o : Option Orientation,
    exec (.odecode p) s = .next { s with result := .orientation o (o.map renderOrientation), events := [] } ∧
    (o.isSome = true ↔ 9 ≤ p.length ∧ p[0]? = some 32) ∧
    (∀ q : Orientation, o = some q →
      q.xr.toInt = signed16At p 1 ∧ q.yr.toInt = signed16At p 3 ∧ q.zr.toInt = signed16At p 5 ∧ q.wr.toInt = signed16At p 7)

/-- The rendering rule R133 (92_eei_decisions.md D8): the rendering of a raw value is the nearest binary64 number to `r / 10000`, exact exactly for multiples of 625. -/
def Obligations.RenderingIsTheNearestBinary64 : Prop :=
  ∀ r : I16, ∃ v : Rat, f64Value (toF64 r) = some v ∧
    (∀ (f : F64) (w : Rat), f64Value f = some w → |v - (r.toInt : Rat) / 10000| ≤ |w - (r.toInt : Rat) / 10000|) ∧
    (v = (r.toInt : Rat) / 10000 ↔ (625 : Int) ∣ r.toInt) ∧
    (r.toInt = 0 → toF64 r = 0)

/-- The spec's inference R136 from R135: the exact arguments of `EULER`, their bound, the clamp as an integer test, and the angles the
numerics give for them. It changes nothing. Delivering the arguments beside the angles is the model's choice (log entry 22), and the
numerics are free (log entry 7). -/
def Obligations.EulerComputesTheExactArguments : Prop :=
  ∀ (a b c d : Int) (s : State), (-32768 ≤ a ∧ a ≤ 32767) → (-32768 ≤ b ∧ b ≤ 32767) → (-32768 ≤ c ∧ c ≤ 32767) →
    (-32768 ≤ d ∧ d ≤ 32767) →
    ∃ (e : EulerArgs) (g : Angles),
      exec (.euler ⟨.grid a, .grid b, .grid c, .grid d⟩) s = .next { s with result := .euler e g, events := [] } ∧
      e = ⟨2 * (d * a + b * c), 100000000 - 2 * (a * a + b * b), 2 * (d * b - c * a), 2 * (d * c + a * b),
        100000000 - 2 * (b * b + c * c)⟩ ∧
      |e.rollNum| ≤ 4294967296 ∧ |e.rollDen| ≤ 4294967296 ∧ |e.pitchNum| ≤ 4294967296 ∧
      |e.yawNum| ≤ 4294967296 ∧ |e.yawDen| ≤ 4294967296 ∧
      g.roll = Config.num.deg (Config.num.atan2 e.rollNum e.rollDen) ∧
      g.yaw = Config.num.deg (Config.num.atan2 e.yawNum e.yawDen) ∧
      (100000000 ≤ e.pitchNum → g.pitch = Config.num.deg (Config.num.asin 100000000 100000000)) ∧
      (e.pitchNum ≤ -100000000 → g.pitch = Config.num.deg (Config.num.asin (-100000000) 100000000)) ∧
      (-100000000 < e.pitchNum → e.pitchNum < 100000000 → g.pitch = Config.num.deg (Config.num.asin e.pitchNum 100000000))

/-- The nine integers of `ROTMAT`, row-major, and their bound (the spec's inference R141). It changes nothing. The formula is the spec's
own, from general knowledge (92_eei_decisions.md D10). -/
def Obligations.RotmatComputesTheNineIntegers : Prop :=
  ∀ (a b c d : Int) (s : State), (-32768 ≤ a ∧ a ≤ 32767) → (-32768 ≤ b ∧ b ≤ 32767) → (-32768 ≤ c ∧ c ≤ 32767) →
    (-32768 ≤ d ∧ d ≤ 32767) →
    ∃ m : Matrix,
      exec (.rotmat ⟨.grid a, .grid b, .grid c, .grid d⟩) s = .next { s with result := .matrix m, events := [] } ∧
      m = ⟨100000000 - 2 * (b * b + c * c), 2 * (a * b - c * d), 2 * (a * c + b * d),
           2 * (a * b + c * d), 100000000 - 2 * (a * a + c * c), 2 * (b * c - a * d),
           2 * (a * c - b * d), 2 * (b * c + a * d), 100000000 - 2 * (a * a + b * b)⟩ ∧
      (∀ n ∈ [m.n00, m.n01, m.n02, m.n10, m.n11, m.n12, m.n20, m.n21, m.n22], |n| ≤ 4294967296)

/-- The domain is the spec's own choice (R144, 92_eei_decisions.md D9): `EULER` and `ROTMAT` are refused exactly on a quaternion that is not four integers in the `i16` range over 10000. -/
def Obligations.ConversionsRefuseOutsideTheDomain : Prop :=
  ∀ (q : QuatArg) (s : State),
    (q.inDomain = false ↔ exec (.euler q) s = .refused .orientationOutsideDomain) ∧
    (q.inDomain = false ↔ exec (.rotmat q) s = .refused .orientationOutsideDomain) ∧
    (q.inDomain = true ↔ ∃ a b c d : Int, q = ⟨.grid a, .grid b, .grid c, .grid d⟩ ∧
      ∀ n ∈ [a, b, c, d], -32768 ≤ n ∧ n ≤ 32767)

/-- The spec's inference R142: the entries of the matrix are the arguments of `EULER`. -/
def Obligations.RotmatEntriesAreTheEulerArguments : Prop :=
  ∀ o : Orientation,
    (rotationMatrix o).n21 = (eulerArgs o).rollNum ∧ (rotationMatrix o).n22 = (eulerArgs o).rollDen ∧
    -(rotationMatrix o).n20 = (eulerArgs o).pitchNum ∧
    (rotationMatrix o).n10 = (eulerArgs o).yawNum ∧ (rotationMatrix o).n00 = (eulerArgs o).yawDen

/-- The spec's inference R143, in integers: with `q` the sum of the squares, the matrix is `H + (10^8 - q) I` where `H H^T = q^2 I` and `det H = q^3`, so
that for a unit quaternion (`q = 10^8`) it is a proper rotation; and the rule's three corner cases. -/
def Obligations.RotmatOfAUnitQuaternionIsARotation : Prop :=
  (∀ o : Orientation, ∃ (h : Matrix) (q : Int),
    q = o.xr.toInt ^ 2 + o.yr.toInt ^ 2 + o.zr.toInt ^ 2 + o.wr.toInt ^ 2 ∧
    rotationMatrix o = ⟨h.n00 + (100000000 - q), h.n01, h.n02, h.n10, h.n11 + (100000000 - q), h.n12,
      h.n20, h.n21, h.n22 + (100000000 - q)⟩ ∧
    h.n00 ^ 2 + h.n01 ^ 2 + h.n02 ^ 2 = q ^ 2 ∧ h.n10 ^ 2 + h.n11 ^ 2 + h.n12 ^ 2 = q ^ 2 ∧
    h.n20 ^ 2 + h.n21 ^ 2 + h.n22 ^ 2 = q ^ 2 ∧
    h.n00 * h.n10 + h.n01 * h.n11 + h.n02 * h.n12 = 0 ∧ h.n00 * h.n20 + h.n01 * h.n21 + h.n02 * h.n22 = 0 ∧
    h.n10 * h.n20 + h.n11 * h.n21 + h.n12 * h.n22 = 0 ∧
    h.n00 * (h.n11 * h.n22 - h.n12 * h.n21) - h.n01 * (h.n10 * h.n22 - h.n12 * h.n20)
      + h.n02 * (h.n10 * h.n21 - h.n11 * h.n20) = q ^ 3) ∧
  rotationMatrix ⟨0, 0, 0, 0⟩ = ⟨100000000, 0, 0, 0, 100000000, 0, 0, 0, 100000000⟩ ∧
  rotationMatrix ⟨10000, 0, 0, 10000⟩ = ⟨100000000, 0, 0, 0, -100000000, -200000000, 0, 200000000, -100000000⟩ ∧
  rotationMatrix ⟨0, 0, 7071, 7071⟩ = ⟨1918, -99998082, 0, 99998082, 1918, 0, 0, 0, 100000000⟩

/-- The reference the spec chose (R138, 92_eei_decisions.md D8, D19; log entry 7) and the clamp (R137). What the clamp gives for every
argument; for numerics within a tolerance of the reference, angles of every orientation within it of angles in range, a clamped pitch
within it of a right angle, and the two conventional points, both signs of 180 allowed; and the range of the reference itself, where
`asin` reaches the right angles at the ends of its domain only. -/
def Obligations.ReferenceAnglesAreInRange : Prop :=
  (∀ n : Int, (100000000 ≤ n → clampPitch n = 100000000) ∧ (n ≤ -100000000 → clampPitch n = -100000000) ∧
    (-100000000 < n → n < 100000000 → clampPitch n = n)) ∧
  (∀ (num : Numerics) (tol : ℝ), MeetsReference num tol → ∀ (o : Orientation) (e : EulerArgs) (g : Angles),
    e = eulerArgs o → g = eulerAngles num e →
    ∃ r p y : ℝ, F64Near tol g.roll r ∧ F64Near tol g.pitch p ∧ F64Near tol g.yaw y ∧
      -180 ≤ r ∧ r ≤ 180 ∧ -90 ≤ p ∧ p ≤ 90 ∧ -180 ≤ y ∧ y ≤ 180 ∧
      (100000000 ≤ e.pitchNum ↔ p = 90) ∧ (e.pitchNum ≤ -100000000 ↔ p = -90) ∧
      (e.rollNum = 0 → e.rollDen = 0 → r = 0) ∧ (e.rollNum = 0 → e.rollDen < 0 → r = 180 ∨ r = -180) ∧
      (e.yawNum = 0 → e.yawDen = 0 → y = 0) ∧ (e.yawNum = 0 → e.yawDen < 0 → y = 180 ∨ y = -180)) ∧
  (∀ (u v : Int) (t : ℝ), RefAtan2Deg u v t → -180 < t ∧ t ≤ 180 ∧ (u = 0 → v = 0 → t = 0) ∧ (u = 0 → v < 0 → t = 180)) ∧
  (∀ (n d : Int) (t : ℝ), 0 < d → |n| ≤ d → RefAsinDeg n d t →
    -90 ≤ t ∧ t ≤ 90 ∧ (t = 90 ↔ n = d) ∧ (t = -90 ↔ n = -d))

/-- With any numerics that meet the reference within a tolerance (log entry 7), the three angles of every orientation are within
that tolerance of the reference, allowing both signs of 180 on the branch cut; those of the identity quaternion are within it of 0. -/
def Obligations.AnglesAreWithinTheNumericTolerance : Prop :=
  ∀ (num : Numerics) (tol : ℝ), MeetsReference num tol →
    (∀ (o : Orientation) (r p y : ℝ),
      RefAtan2Deg (eulerArgs o).rollNum (eulerArgs o).rollDen r →
      RefAsinDeg (clampPitch (eulerArgs o).pitchNum) 100000000 p →
      RefAtan2Deg (eulerArgs o).yawNum (eulerArgs o).yawDen y →
      (F64Near tol (eulerAngles num (eulerArgs o)).roll r ∨ (r = 180 ∧ F64Near tol (eulerAngles num (eulerArgs o)).roll (-180))) ∧
      F64Near tol (eulerAngles num (eulerArgs o)).pitch p ∧
      (F64Near tol (eulerAngles num (eulerArgs o)).yaw y ∨ (y = 180 ∧ F64Near tol (eulerAngles num (eulerArgs o)).yaw (-180)))) ∧
    F64Near tol (eulerAngles num (eulerArgs ⟨0, 0, 0, 10000⟩)).roll 0 ∧
    F64Near tol (eulerAngles num (eulerArgs ⟨0, 0, 0, 10000⟩)).pitch 0 ∧
    F64Near tol (eulerAngles num (eulerArgs ⟨0, 0, 0, 10000⟩)).yaw 0

/-! ### Reserved codes, shorthands, wire rows -/

/-- R67: a reserved select code is refused in every state. The codes are the spec's own (92_eei_decisions.md D3). -/
def Obligations.ReservedSelectCodesAreRefused : Prop :=
  ∀ s : State,
    exec .reserved12 s = .refused (.reservedSelectCode 12) ∧ exec .reserved13 s = .refused (.reservedSelectCode 13) ∧
    exec .reserved14 s = .refused (.reservedSelectCode 14) ∧ exec .reserved15 s = .refused (.reservedSelectCode 15)

/-- The four command shorthands are the `ENCODE`s of R69 (their `is_response` is the spec's choice, 92_eei_decisions.md D18), and the
bytes of the worked example R65 when the checksum parameters are the defaults (log entry 6). -/
def Obligations.CommandShorthandsEncode : Prop :=
  (∀ (v : Bool) (s : State), exec (cmdEnable v) s = exec (.encode 124 [if v then 1 else 0] false) s) ∧
  (∀ s : State, exec cmdAttach s = exec (.encode 195 [0] false) s ∧ exec cmdDetach s = exec (.encode 195 [1] false) s ∧
    exec cmdKeepAlive s = exec (.encode 195 [4] false) s) ∧
  (∀ s : State, s.params.crc = defaultCrc →
    exec (cmdEnable true) s =
      .next { s with result := .frame [0xFD, 0x04, 0x00, 0x7C, 0x01, 0x15, 0x5D, 0xDD], events := [] } ∧
    exec (.encode 124 [1] true) s =
      .next { s with result := .frame [0xFD, 0x04, 0x10, 0x7C, 0x01, 0x15, 0x5D, 0xDD], events := [] })

/-- The message-id, control-code and subtype rows route the message that carries them (log entry 2): the default arm, the
orientation arm, the status of the code. -/
def Obligations.WireMessageRowsAreRouted : Prop :=
  ∀ (p : List Byte) (resp : Bool) (s : State),
    exec (.msgSetSpatialAudioEnable p resp) s = .next { s with result := .nothing, events := [] } ∧
    exec (.msgSpatialAudioData p resp) s = .next { s with
      latest := latestAfter s.latest [⟨194, p, resp⟩], result := .nothing, events := eventsOf s.obs ⟨194, p, resp⟩ } ∧
    exec (.msgSpatialAudioControl p resp) s = .next { s with result := .nothing, events := (p.take 1).map .statusEvt } ∧
    exec (.ctrlAttach p resp) s = .next { s with result := .nothing, events := [.statusEvt 0] } ∧
    exec (.ctrlDetach p resp) s = .next { s with result := .nothing, events := [.statusEvt 1] } ∧
    exec (.ctrlAttachSuccess p resp) s = .next { s with result := .nothing, events := [.statusEvt 2] } ∧
    exec (.ctrlDetachSuccess p resp) s = .next { s with result := .nothing, events := [.statusEvt 3] } ∧
    exec (.ctrlKeepAlive p resp) s = .next { s with result := .nothing, events := [.statusEvt 4] } ∧
    exec (.subtypeOrientation p resp) s = .next { s with
      latest := latestAfter s.latest [⟨194, 32 :: p, resp⟩], result := .nothing, events := eventsOf s.obs ⟨194, 32 :: p, resp⟩ }

/-- The framing rows are their bytes arriving on the stream (log entry 2), low byte first, and such an arrival always completes. -/
def Obligations.WireFramingRowsArriveOnTheStream : Prop :=
  ∀ s : State,
    (∀ w : U16, ∃ t : State, exec (.frameHeader w) s = .next t ∧
      exec (.sfeed [BitVec.ofNat 8 (w.toNat % 256), BitVec.ofNat 8 (w.toNat / 256)]) s = .next t) ∧
    (∃ t : State, exec .sentStart s = .next t ∧ exec (.sfeed [0xFD]) s = .next t) ∧
    (∃ t : State, exec .sentEnd s = .next t ∧ exec (.sfeed [0xDD]) s = .next t)

/-! ### Whole-machine rules -/

/-- R11: which operations may write which state element. The wire rows stand with the operation they are (log entry 2). -/
def Obligations.OnlyNamedOperationsWriteTheElements : Prop :=
  ∀ (i : Instr) (s t : State), exec i s = .next t →
    (t.buf ≠ s.buf → (∃ c, i = .feed c) ∨ (∃ c, i = .sfeed c) ∨ i = .reset ∨ (∃ w, i = .frameHeader w) ∨ i = .sentStart ∨
      i = .sentEnd) ∧
    (t.latest ≠ s.latest → (∃ m, i = .route m) ∨ (∃ c, i = .sfeed c) ∨ i = .reset ∨ (∃ w, i = .frameHeader w) ∨ i = .sentStart ∨
      i = .sentEnd ∨ (∃ p r, i = .msgSpatialAudioData p r) ∨ (∃ p r, i = .subtypeOrientation p r)) ∧
    (t.obs ≠ s.obs → (∃ h, i = .subscribe h) ∨ i = .reset)

/-- R31, R32: bytes enter `BUF` only behind what it holds, as the chunk of a `FEED` or `SFEED` (or a framing row, log entry 2), and
leave it only from the front. -/
def Obligations.BytesEnterBehindAndLeaveInFront : Prop :=
  ∀ (i : Instr) (s t : State), exec i s = .next t →
    (∀ c : List Byte, i = .feed c ∨ i = .sfeed c → t.buf <:+ s.buf ++ c) ∧
    (∀ w : U16, i = .frameHeader w → t.buf <:+ s.buf ++ le16Bytes w) ∧
    (i = .sentStart → t.buf <:+ s.buf ++ [0xFD]) ∧
    (i = .sentEnd → t.buf <:+ s.buf ++ [0xDD]) ∧
    (t.buf <:+ s.buf ∨ (∃ c, i = .feed c) ∨ (∃ c, i = .sfeed c) ∨ (∃ w, i = .frameHeader w) ∨ i = .sentStart ∨ i = .sentEnd)

/-- No step changes a build-time parameter (R14; held in the state by the model's choice, log entry 5). A step takes exactly the oldest
request off the queue, which is the model's own, as is the queue (log entry 1). -/
def Obligations.ParametersNeverChange : Prop :=
  (∀ s t : State, step s = .next t → t.params = s.params) ∧
  (∀ s t : State, step s = .next t → t.requests = s.requests.tail)

/-- R13: no operation reads the outputs an earlier operation left. That they stand in the state is the model's choice (log entry 4). -/
def Obligations.OutputsAreNeverRead : Prop :=
  ∀ (i : Instr) (s : State) (r : Result) (e : List Event), exec i { s with result := r, events := e } = exec i s

/-- R10: the Checksum unit, the Frame Codec and the Orientation Decoder hold and read no state: in two states that agree on the
parameters alone they hand back the same result, and they change nothing. -/
def Obligations.PureOperationsReadNoState : Prop :=
  ∀ (i : Instr) (s s' t : State),
    ((∃ d, i = .crc16 d) ∨ (∃ m p r, i = .encode m p r) ∨ (∃ d, i = .decode d) ∨ (∃ p, i = .odecode p) ∨ (∃ q, i = .euler q) ∨
      (∃ q, i = .rotmat q)) →
    s'.params = s.params → exec i s = .next t →
    t = { s with result := t.result, events := [] } ∧ exec i s' = .next { s' with result := t.result, events := [] }

/-- Every step keeps the invariant: the buffer at rest (R118) and the diagnostics beside their messages (R96, R116). -/
def Obligations.EveryStepKeepsTheInvariant : Prop :=
  ∀ s t : State, s.Inv → step s = .next t → t.Inv

/-- The invariant holds after reset. -/
def Obligations.ResetMeetsTheInvariant : Prop := State.reset.Inv

/-- No step faults, in any state: every buffer access is inside `BUF` (R34) and the loop ends (R119). The two faults are the model's own
guards (log entry 11). -/
def Obligations.NoStepFaults : Prop :=
  ∀ (s : State) (f : Fault), step s ≠ .fault f

/-- The model's refusals, and what each needs: a reserved select code, or `EULER` or `ROTMAT` outside its domain (R181), or a wire word
that is no row of the opcode table. The last is the model's choice (log entry 2), as are the queue the request stands in (log entry 1)
and the form of the operand whose domain is tested (log entry 12). -/
def Obligations.EveryRefusalHasOneOfThreeCauses : Prop :=
  ∀ (s : State) (r : Refusal), step s = .refused r →
    ∃ (q : Request) (rest : List Request), s.requests = q :: rest ∧
      ((∃ e, decode q = .error e ∧ r = .undecodable e) ∨
       (decode q = .ok .reserved12 ∧ r = .reservedSelectCode 12) ∨ (decode q = .ok .reserved13 ∧ r = .reservedSelectCode 13) ∨
       (decode q = .ok .reserved14 ∧ r = .reservedSelectCode 14) ∨ (decode q = .ok .reserved15 ∧ r = .reservedSelectCode 15) ∨
       (∃ a : QuatArg, (decode q = .ok (.euler a) ∨ decode q = .ok (.rotmat a)) ∧ a.inDomain = false ∧
         r = .orientationOutsideDomain))

/-! ### The buffer and the byte order -/

/-- R31 to R34: the buffer's primitives, byte by byte, and exactly where each is defined. The two clauses that say an access outside
faults by the name `bufOutOfRange` are the model's choice of a guard (log entries 10 and 11). -/
def Obligations.BufferPrimitives : Prop :=
  ∀ (buf chunk : List Byte) (a n : Nat),
    (a < buf.length → (bufAppend buf chunk)[a]? = buf[a]?) ∧
    (bufAppend buf chunk)[buf.length + a]? = chunk[a]? ∧
    (n ≤ buf.length → ∃ b : List Byte, bufDrop buf n = .ok b ∧ b.length = buf.length - n ∧ ∀ i : Nat, b[i]? = buf[n + i]?) ∧
    (buf.length < n → bufDrop buf n = .error (.bufOutOfRange 0 n buf.length)) ∧
    bufDrop buf buf.length = .ok bufClear ∧
    (a + n ≤ buf.length → ∃ b : List Byte, memRead buf a n = .ok b ∧ b.length = n ∧ ∀ i : Nat, i < n → b[i]? = buf[a + i]?) ∧
    (buf.length < a + n → memRead buf a n = .error (.bufOutOfRange a n buf.length))

/-- R36: two bytes are the 16-bit value with the first byte low, read and written alike; the signed reading. -/
def Obligations.SixteenBitFieldsAreLittleEndian : Prop :=
  (∀ lo hi : Byte, (le16 lo hi).toNat = lo.toNat + 256 * hi.toNat ∧ le16Bytes (le16 lo hi) = [lo, hi]) ∧
  (∀ v : U16, le16Bytes v = [BitVec.ofNat 8 (v.toNat % 256), BitVec.ofNat 8 (v.toNat / 256)]) ∧
  (∀ lo hi : Byte, (s16le lo hi).toInt = signed16At [lo, hi] 0)
end

