-- ==== Sys2Proof/Laws/Buffer.lean ====
section
/-! SUPPORT. What the buffer operations can do (spec/20_memory.md R30 to R34), and the canonical form of the buffer's cells. -/

namespace Sys2Proof.Machine

theorem memRead_ok {buf : List Byte} {addr n : Nat} (h : addr + n ≤ buf.length) :
    memRead buf addr n = .ok ((buf.drop addr).take n) := if_pos h

theorem memRead_fault {buf : List Byte} {addr n : Nat} (h : buf.length < addr + n) :
    memRead buf addr n = .error (.bufOutOfRange addr n buf.length) := if_neg (by omega)

theorem bufDrop_ok {buf : List Byte} {k : Nat} (h : k ≤ buf.length) : bufDrop buf k = .ok (buf.drop k) := if_pos h

theorem bufDrop_fault {buf : List Byte} {k : Nat} (h : buf.length < k) :
    bufDrop buf k = .error (.bufOutOfRange 0 k buf.length) := if_neg (by omega)

theorem byteAt_eq_getElem {s : List Byte} {i : Nat} (h : i < s.length) : byteAt s i = s[i] := by
  simp [byteAt, h]

theorem byteAt_append_left {s t : List Byte} {i : Nat} (h : i < s.length) : byteAt (s ++ t) i = byteAt s i := by
  simp [byteAt, List.getElem?_append_left h]

theorem byteAt_drop (s : List Byte) (k i : Nat) : byteAt (s.drop k) i = byteAt s (k + i) := by
  simp [byteAt]

theorem byteAt_take {s : List Byte} {k i : Nat} (h : i < k) : byteAt (s.take k) i = byteAt s i := by
  simp [byteAt, h]

@[simp] theorem slice_length (s : List Byte) (a b : Nat) : (slice s a b).length = min (b - a) (s.length - a) := by
  simp [slice]

@[simp] theorem memoryCells_length (buf : List Byte) : (memoryCells buf).length = buf.length := by
  simp [memoryCells]

/-- The buffer's cells are in canonical form, whatever the buffer holds. -/
theorem memoryWf_memoryCells (buf : List Byte) : memoryWf (memoryCells buf) = true := by
  simp [memoryWf, memoryCells, List.map_fst_zip]

/-- The byte a cell lists at address `a` is the buffer's byte at index `a`. -/
theorem memoryCells_getElem? (buf : List Byte) (a : Nat) : (memoryCells buf)[a]? = (buf[a]?).map (a, ·) := by
  by_cases h : a < buf.length <;> simp [memoryCells, h, List.zip_eq_zipWith]

/-- Equal cells are equal buffers: the form is canonical. -/
theorem memoryCells_injective {b c : List Byte} (h : memoryCells b = memoryCells c) : b = c := by
  apply List.ext_getElem?
  intro a
  have := congrArg (fun l => (l[a]?).map Prod.snd) h
  simpa [memoryCells_getElem?, Function.comp_def] using this

theorem bufAppend_keeps_wf (buf chunk : List Byte) : memoryWf (memoryCells (bufAppend buf chunk)) = true :=
  memoryWf_memoryCells _

theorem bufDrop_keeps_wf {buf rest : List Byte} {k : Nat} (_ : bufDrop buf k = .ok rest) :
    memoryWf (memoryCells rest) = true := memoryWf_memoryCells _

theorem bufClear_wf : memoryWf (memoryCells bufClear) = true := memoryWf_memoryCells _

theorem reset_memory_wf : memoryWf (memoryCells State.reset.buf) = true := memoryWf_memoryCells _

end Sys2Proof.Machine
end

