-- ==== Sys2Proof/Laws/State.lean ====
section
/-! SUPPORT. One lemma per field of `State` and per update, so that no proof unfolds a record update. -/

namespace Sys2Proof.Machine

variable (s : State)

@[simp] theorem State.setBuf_buf (b : List Byte) : (s.setBuf b).buf = b := rfl
@[simp] theorem State.setBuf_latest (b : List Byte) : (s.setBuf b).latest = s.latest := rfl
@[simp] theorem State.setBuf_obs (b : List Byte) : (s.setBuf b).obs = s.obs := rfl
@[simp] theorem State.setBuf_params (b : List Byte) : (s.setBuf b).params = s.params := rfl
@[simp] theorem State.setBuf_requests (b : List Byte) : (s.setBuf b).requests = s.requests := rfl
@[simp] theorem State.setBuf_result (b : List Byte) : (s.setBuf b).result = s.result := rfl
@[simp] theorem State.setBuf_events (b : List Byte) : (s.setBuf b).events = s.events := rfl

@[simp] theorem State.setLatest_buf (o : Orientation) : (s.setLatest o).buf = s.buf := rfl
@[simp] theorem State.setLatest_latest (o : Orientation) : (s.setLatest o).latest = some o := rfl
@[simp] theorem State.setLatest_obs (o : Orientation) : (s.setLatest o).obs = s.obs := rfl
@[simp] theorem State.setLatest_params (o : Orientation) : (s.setLatest o).params = s.params := rfl
@[simp] theorem State.setLatest_requests (o : Orientation) : (s.setLatest o).requests = s.requests := rfl
@[simp] theorem State.setLatest_result (o : Orientation) : (s.setLatest o).result = s.result := rfl
@[simp] theorem State.setLatest_events (o : Orientation) : (s.setLatest o).events = s.events := rfl

@[simp] theorem State.setObs_buf (h : Handle) : (s.setObs h).buf = s.buf := rfl
@[simp] theorem State.setObs_latest (h : Handle) : (s.setObs h).latest = s.latest := rfl
@[simp] theorem State.setObs_obs (h : Handle) : (s.setObs h).obs = some h := rfl
@[simp] theorem State.setObs_params (h : Handle) : (s.setObs h).params = s.params := rfl
@[simp] theorem State.setObs_requests (h : Handle) : (s.setObs h).requests = s.requests := rfl
@[simp] theorem State.setObs_result (h : Handle) : (s.setObs h).result = s.result := rfl
@[simp] theorem State.setObs_events (h : Handle) : (s.setObs h).events = s.events := rfl

@[simp] theorem State.clearElements_buf : s.clearElements.buf = [] := rfl
@[simp] theorem State.clearElements_latest : s.clearElements.latest = none := rfl
@[simp] theorem State.clearElements_obs : s.clearElements.obs = none := rfl
@[simp] theorem State.clearElements_params : s.clearElements.params = s.params := rfl
@[simp] theorem State.clearElements_requests : s.clearElements.requests = s.requests := rfl
@[simp] theorem State.clearElements_result : s.clearElements.result = s.result := rfl
@[simp] theorem State.clearElements_events : s.clearElements.events = s.events := rfl

@[simp] theorem State.start_buf : s.start.buf = s.buf := rfl
@[simp] theorem State.start_latest : s.start.latest = s.latest := rfl
@[simp] theorem State.start_obs : s.start.obs = s.obs := rfl
@[simp] theorem State.start_params : s.start.params = s.params := rfl
@[simp] theorem State.start_requests : s.start.requests = s.requests := rfl
@[simp] theorem State.start_result : s.start.result = .nothing := rfl
@[simp] theorem State.start_events : s.start.events = [] := rfl

@[simp] theorem State.deliver_buf (r : Result) : (s.deliver r).buf = s.buf := rfl
@[simp] theorem State.deliver_latest (r : Result) : (s.deliver r).latest = s.latest := rfl
@[simp] theorem State.deliver_obs (r : Result) : (s.deliver r).obs = s.obs := rfl
@[simp] theorem State.deliver_params (r : Result) : (s.deliver r).params = s.params := rfl
@[simp] theorem State.deliver_requests (r : Result) : (s.deliver r).requests = s.requests := rfl
@[simp] theorem State.deliver_result (r : Result) : (s.deliver r).result = r := rfl
@[simp] theorem State.deliver_events (r : Result) : (s.deliver r).events = s.events := rfl

@[simp] theorem State.emit_buf (e : Event) : (s.emit e).buf = s.buf := rfl
@[simp] theorem State.emit_latest (e : Event) : (s.emit e).latest = s.latest := rfl
@[simp] theorem State.emit_obs (e : Event) : (s.emit e).obs = s.obs := rfl
@[simp] theorem State.emit_params (e : Event) : (s.emit e).params = s.params := rfl
@[simp] theorem State.emit_requests (e : Event) : (s.emit e).requests = s.requests := rfl
@[simp] theorem State.emit_result (e : Event) : (s.emit e).result = s.result := rfl
@[simp] theorem State.emit_events (e : Event) : (s.emit e).events = s.events ++ [e] := rfl

@[simp] theorem State.raise_buf (e : Exc) : (s.raise e).buf = s.buf := rfl
@[simp] theorem State.raise_latest (e : Exc) : (s.raise e).latest = s.latest := rfl
@[simp] theorem State.raise_obs (e : Exc) : (s.raise e).obs = s.obs := rfl
@[simp] theorem State.raise_params (e : Exc) : (s.raise e).params = s.params := rfl
@[simp] theorem State.raise_requests (e : Exc) : (s.raise e).requests = s.requests := rfl
@[simp] theorem State.raise_result (e : Exc) : (s.raise e).result = .raised e := rfl
@[simp] theorem State.raise_events (e : Exc) : (s.raise e).events = [] := rfl

@[simp] theorem State.afterException_buf : s.afterException.buf = s.buf := rfl
@[simp] theorem State.afterException_latest : s.afterException.latest = s.latest := rfl
@[simp] theorem State.afterException_obs : s.afterException.obs = s.obs := rfl
@[simp] theorem State.afterException_params : s.afterException.params = s.params := rfl
@[simp] theorem State.afterException_requests : s.afterException.requests = s.requests := rfl
@[simp] theorem State.afterException_result : s.afterException.result = s.result := rfl
@[simp] theorem State.afterException_events : s.afterException.events = s.events := rfl

/-- All a notification can do (R150): append `ORI_EVT` for the registered observer, or nothing. -/
theorem State.notify_eq (o : Orientation) :
    s.notify o = { s with events := s.events ++ (match s.obs with | some h => [.oriEvt h o] | none => []) } := by
  cases s with
  | mk buf latest obs params requests result events => cases obs <;> simp [State.notify, State.emit]

@[simp] theorem State.notify_buf (o : Orientation) : (s.notify o).buf = s.buf := by rw [State.notify_eq]
@[simp] theorem State.notify_latest (o : Orientation) : (s.notify o).latest = s.latest := by rw [State.notify_eq]
@[simp] theorem State.notify_obs (o : Orientation) : (s.notify o).obs = s.obs := by rw [State.notify_eq]
@[simp] theorem State.notify_params (o : Orientation) : (s.notify o).params = s.params := by rw [State.notify_eq]
@[simp] theorem State.notify_requests (o : Orientation) : (s.notify o).requests = s.requests := by rw [State.notify_eq]
@[simp] theorem State.notify_result (o : Orientation) : (s.notify o).result = s.result := by rw [State.notify_eq]

@[simp] theorem State.notify_events (o : Orientation) :
    (s.notify o).events = s.events ++ (match s.obs with | some h => [.oriEvt h o] | none => []) := by rw [State.notify_eq]

end Sys2Proof.Machine
end

