-- ==== Sys2Proof/Laws/Codec.lean ====
section
/-! SUPPORT. What the Frame Codec can answer, said once (spec/41_frame_codec.md R90, R94). -/

namespace Sys2Proof.Machine

/-- `ENCODE` answers a frame exactly when the payload has at most 1020 bytes, and then this one (R90, R91). -/
theorem encodeFrame_cases (p : CrcParams) (mid : Byte) (payload : List Byte) (resp : Bool) :
    (1021 ≤ payload.length ∧ encodeFrame p mid payload resp = .error (.payloadTooLarge payload.length)) ∨
    (payload.length ≤ 1020 ∧ encodeFrame p mid payload resp = .ok ([sentStart] ++ le16Bytes (makeHeader (1 + payload.length + 2) resp)
      ++ [mid] ++ payload ++ le16Bytes (crc16 p (mid :: payload)) ++ [sentEnd])) := by
  unfold encodeFrame sizeMax
  by_cases h : 1023 < 1 + payload.length + 2
  · exact .inl ⟨by omega, if_pos h⟩
  · exact .inr ⟨by omega, if_neg h⟩

/-- A message comes out of `DECODE` exactly when the four tests pass, and then this one (R94). -/
theorem decodeFrame_eq_ok {p : CrcParams} {d : List Byte} {r : Decoded} :
    decodeFrame p d = .ok r ↔
      minBuf ≤ d.length ∧ byteAt d 0 = sentStart ∧
      4 + headerPayloadLen (le16 (byteAt d 1) (byteAt d 2)) + 2 < d.length ∧
      byteAt d (4 + headerPayloadLen (le16 (byteAt d 1) (byteAt d 2)) + 2) = sentEnd ∧
      r = ⟨⟨byteAt d 3, slice d 4 (4 + headerPayloadLen (le16 (byteAt d 1) (byteAt d 2))),
            headerIsResponse (le16 (byteAt d 1) (byteAt d 2))⟩,
          crcOk p (byteAt d 3) (slice d 4 (4 + headerPayloadLen (le16 (byteAt d 1) (byteAt d 2))))
            (le16 (byteAt d (4 + headerPayloadLen (le16 (byteAt d 1) (byteAt d 2))))
              (byteAt d (5 + headerPayloadLen (le16 (byteAt d 1) (byteAt d 2)))))⟩ := by
  unfold decodeFrame
  by_cases h1 : d.length < minBuf
  · simp [h1]
  by_cases h2 : byteAt d 0 = sentStart
  swap
  · simp [h1, h2]
  by_cases h3 : d.length ≤ 4 + headerPayloadLen (le16 (byteAt d 1) (byteAt d 2)) + 2
  · simp [h1, h2, h3]
  by_cases h4 : byteAt d (4 + headerPayloadLen (le16 (byteAt d 1) (byteAt d 2)) + 2) = sentEnd
  · simp [h1, h2, h3, h4, Nat.not_lt.mp h1, Nat.lt_of_not_le h3, eq_comm]
  · simp [h1, h2, h3, h4]

end Sys2Proof.Machine
end

