-- ==== Sys2Proof/Laws/Issue.lean ====
section
/-! SUPPORT. What the block can find at its interface, said once. -/

namespace Sys2Proof.Machine

theorem takeIssued_idle {s : State} (h : s.requests = []) : takeIssued s = .idle := by simp [takeIssued, h]

theorem takeIssued_op {s : State} {r : Request} {rest : List Request} {i : Instr} (h : s.requests = r :: rest)
    (hd : decode r = .ok i) : takeIssued s = .op i { s with requests := rest } := by simp [takeIssued, h, hd]

theorem takeIssued_rejected {s : State} {r : Request} {rest : List Request} {e : DecodeError} (h : s.requests = r :: rest)
    (hd : decode r = .error e) : takeIssued s = .rejected e := by simp [takeIssued, h, hd]

@[simp] theorem issueNext_requests (r : Request) (s : State) : (issueNext r s).requests = r :: s.requests := rfl
@[simp] theorem issueNext_buf (r : Request) (s : State) : (issueNext r s).buf = s.buf := rfl
@[simp] theorem issueNext_latest (r : Request) (s : State) : (issueNext r s).latest = s.latest := rfl
@[simp] theorem issueNext_obs (r : Request) (s : State) : (issueNext r s).obs = s.obs := rfl
@[simp] theorem issueNext_params (r : Request) (s : State) : (issueNext r s).params = s.params := rfl

end Sys2Proof.Machine
end

