-- ==== Sys2Proof/Laws/Operands.lean ====
section
/-! SUPPORT. What the operand forms and the sequencing operation can do, said once. -/

namespace Sys2Proof.Machine

/-- A sequence of outcomes answers a next state only through a next value. -/
theorem andThen_next {α β : Type} {o : Host.Outcome α Fault Refusal} {f : α → Host.Outcome β Fault Refusal} {b : β}
    (h : andThen o f = .next b) : ∃ a, o = .next a ∧ f a = .next b := by
  cases o with
  | next a => exact ⟨a, rfl, h⟩
  | fault r => cases h
  | refused r => cases h

/-- A component has a raw value exactly when it is an integer in the `i16` range (R144). -/
theorem componentRaw_eq_some {c : Component} {v : I16} :
    componentRaw c = some v ↔ ∃ n : Int, c = .grid n ∧ -32768 ≤ n ∧ n ≤ 32767 ∧ v = BitVec.ofInt 16 n := by
  cases c with
  | offGrid => simp [componentRaw]
  | grid n =>
    by_cases h : -32768 ≤ n ∧ n ≤ 32767
    · simp [componentRaw, h, eq_comm]
    · simp only [componentRaw, h, if_false]
      constructor
      · intro h'; cases h'
      · rintro ⟨m, hm, h1, h2, -⟩
        cases hm
        exact absurd ⟨h1, h2⟩ h

/-- The raw value of a component keeps its number (R17). -/
theorem toInt_ofInt_grid {n : Int} (h1 : -32768 ≤ n) (h2 : n ≤ 32767) : (BitVec.ofInt 16 n).toInt = n := by
  rw [BitVec.toInt_ofInt]
  simp only [Int.bmod]
  omega

theorem componentRaw_isSome (c : Component) : (componentRaw c).isSome = c.inDomain := by
  cases c with
  | offGrid => rfl
  | grid n => by_cases h1 : -32768 ≤ n <;> by_cases h2 : n ≤ 32767 <;> simp [componentRaw, Component.inDomain, h1, h2]

/-- The domain test of the machine is the one of `WellFormed` (R144, R181). -/
theorem quatOrientation_isSome (q : QuatArg) : (quatOrientation q).isSome = q.inDomain := by
  unfold quatOrientation QuatArg.inDomain
  simp only [← componentRaw_isSome]
  cases componentRaw q.x <;> cases componentRaw q.y <;> cases componentRaw q.z <;> cases componentRaw q.w <;> rfl

/-- The size a header carries is at most 1023 (R55). -/
theorem headerSize_le (h : U16) : headerSize h ≤ 1023 := by
  unfold headerSize sizeMask
  rw [BitVec.toNat_and]
  exact Nat.and_le_right

end Sys2Proof.Machine
end

