-- ==== Sys2Proof/Laws/PerInstr.lean ====
section
/-! SUPPORT. Statements about every instruction, one lemma per constructor. -/

namespace Sys2Proof.Laws

/-- The request that issues an operation decodes to it (spec/30_encoding.md R66). -/
def DecodeEncode.Statement (i : Instr) : Prop := decode (encode i) = .ok i

theorem DecodeEncode.crc16 (data : List Byte) : DecodeEncode.Statement (.crc16 data) := rfl
theorem DecodeEncode.encode (messageId : Byte) (payload : List Byte) (isResponse : Bool) : DecodeEncode.Statement (.encode messageId payload isResponse) := rfl
theorem DecodeEncode.decode (data : List Byte) : DecodeEncode.Statement (.decode data) := rfl
theorem DecodeEncode.feed (chunk : List Byte) : DecodeEncode.Statement (.feed chunk) := rfl
theorem DecodeEncode.odecode (payload : List Byte) : DecodeEncode.Statement (.odecode payload) := rfl
theorem DecodeEncode.euler (q : QuatArg) : DecodeEncode.Statement (.euler q) := rfl
theorem DecodeEncode.rotmat (q : QuatArg) : DecodeEncode.Statement (.rotmat q) := rfl
theorem DecodeEncode.route (m : Message) : DecodeEncode.Statement (.route m) := rfl
theorem DecodeEncode.sfeed (chunk : List Byte) : DecodeEncode.Statement (.sfeed chunk) := rfl
theorem DecodeEncode.latestRd : DecodeEncode.Statement (.latestRd) := rfl
theorem DecodeEncode.subscribe (handle : Handle) : DecodeEncode.Statement (.subscribe handle) := rfl
theorem DecodeEncode.reset : DecodeEncode.Statement (.reset) := rfl
theorem DecodeEncode.reserved12 : DecodeEncode.Statement (.reserved12) := rfl
theorem DecodeEncode.reserved13 : DecodeEncode.Statement (.reserved13) := rfl
theorem DecodeEncode.reserved14 : DecodeEncode.Statement (.reserved14) := rfl
theorem DecodeEncode.reserved15 : DecodeEncode.Statement (.reserved15) := rfl
theorem DecodeEncode.frameHeader (header : U16) : DecodeEncode.Statement (.frameHeader header) := rfl
theorem DecodeEncode.sentStart : DecodeEncode.Statement (.sentStart) := rfl
theorem DecodeEncode.sentEnd : DecodeEncode.Statement (.sentEnd) := rfl
theorem DecodeEncode.msgSetSpatialAudioEnable (payload : List Byte) (isResponse : Bool) : DecodeEncode.Statement (.msgSetSpatialAudioEnable payload isResponse) := rfl
theorem DecodeEncode.msgSpatialAudioData (payload : List Byte) (isResponse : Bool) : DecodeEncode.Statement (.msgSpatialAudioData payload isResponse) := rfl
theorem DecodeEncode.msgSpatialAudioControl (payload : List Byte) (isResponse : Bool) : DecodeEncode.Statement (.msgSpatialAudioControl payload isResponse) := rfl
theorem DecodeEncode.ctrlAttach (rest : List Byte) (isResponse : Bool) : DecodeEncode.Statement (.ctrlAttach rest isResponse) := rfl
theorem DecodeEncode.ctrlDetach (rest : List Byte) (isResponse : Bool) : DecodeEncode.Statement (.ctrlDetach rest isResponse) := rfl
theorem DecodeEncode.ctrlAttachSuccess (rest : List Byte) (isResponse : Bool) : DecodeEncode.Statement (.ctrlAttachSuccess rest isResponse) := rfl
theorem DecodeEncode.ctrlDetachSuccess (rest : List Byte) (isResponse : Bool) : DecodeEncode.Statement (.ctrlDetachSuccess rest isResponse) := rfl
theorem DecodeEncode.ctrlKeepAlive (rest : List Byte) (isResponse : Bool) : DecodeEncode.Statement (.ctrlKeepAlive rest isResponse) := rfl
theorem DecodeEncode.subtypeOrientation (rest : List Byte) (isResponse : Bool) : DecodeEncode.Statement (.subtypeOrientation rest isResponse) := rfl

end Sys2Proof.Laws
end

