-- ==== Sys2Proof/Laws/Reassembler.lean ====
section
/-! SUPPORT. What one pass of the reassembler's loop can do, said once (spec/42_reassembler.md R112 to R115). -/

namespace Sys2Proof.Machine

/-- The `total_size` the header of a buffer gives (R114). -/
theorem cutCandidate_eq (p : CrcParams) (b : List Byte) :
    cutCandidate p b = .ok (
      if b.length < hdrNeed then .stop .headerWait b
      else if b.length < headerTotal (le16 (byteAt b 1) (byteAt b 2)) then .stop .frameWait b
      else .cut (b.drop (headerTotal (le16 (byteAt b 1) (byteAt b 2))))
        (decodeFrame p (b.take (headerTotal (le16 (byteAt b 1) (byteAt b 2)))))) := by
  unfold cutCandidate
  by_cases h3 : b.length < hdrNeed
  · simp [h3]
  · have h : 1 + 2 ≤ b.length := by simp [hdrNeed] at h3; omega
    have e1 : byteAt ((b.drop 1).take 2) 0 = byteAt b 1 := by rw [byteAt_take (by omega), byteAt_drop]
    have e2 : byteAt ((b.drop 1).take 2) 1 = byteAt b 2 := by rw [byteAt_take (by omega), byteAt_drop]
    simp only [h3, if_false, memRead_ok h, bind, Except.bind, e1, e2]
    by_cases ht : b.length < headerTotal (le16 (byteAt b 1) (byteAt b 2))
    · simp [ht]
    · simp only [ht, if_false]
      rw [memRead_ok (by omega), bufDrop_ok (by omega)]
      simp

theorem findStart_lt {buf : List Byte} {i : Nat} (h : findStart buf = some i) : i < buf.length := by
  induction buf generalizing i with
  | nil => simp [findStart] at h
  | cons b bs ih =>
    by_cases hb : b = sentStart
    · simp [findStart, hb] at h
      simp [← h]
    · simp only [findStart, hb, if_false, Option.map_eq_some_iff] at h
      obtain ⟨j, hj, rfl⟩ := h
      simpa using ih hj

theorem findStart_byteAt {buf : List Byte} {i : Nat} (h : findStart buf = some i) : byteAt buf i = sentStart := by
  induction buf generalizing i with
  | nil => simp [findStart] at h
  | cons b bs ih =>
    by_cases hb : b = sentStart
    · simp [findStart, hb] at h
      simp [← h, byteAt, hb]
    · simp only [findStart, hb, if_false, Option.map_eq_some_iff] at h
      obtain ⟨j, hj, rfl⟩ := h
      simpa [byteAt] using ih hj

theorem findStart_none_iff (buf : List Byte) : findStart buf = none ↔ sentStart ∉ buf := by
  induction buf with
  | nil => simp [findStart]
  | cons b bs ih =>
    by_cases hb : b = sentStart
    · simp [findStart, hb]
    · simp [findStart, hb, ih, Ne.symm hb]

/-- Garbage without a start sentinel only moves the index (R113). -/
theorem findStart_append {g buf : List Byte} (h : sentStart ∉ g) :
    findStart (g ++ buf) = (findStart buf).map (· + g.length) := by
  induction g with
  | nil => simp
  | cons b bs ih =>
    simp only [List.mem_cons, not_or] at h
    simp only [List.cons_append, findStart, Ne.symm h.1, if_false, ih h.2, Option.map_map]
    congr 1

/-- One pass, whole: it never faults, because every read is guarded (R34, R112 to R115). -/
theorem feedPass_eq (p : CrcParams) (buf : List Byte) :
    feedPass p buf =
      if buf.length < minBuf then .ok (.stop .short buf)
      else match findStart buf with
        | none => .ok (.stop .desync [])
        | some i => cutCandidate p (buf.drop i) := by
  unfold feedPass
  cases h : findStart buf with
  | none => rfl
  | some i => simp [bufDrop_ok (Nat.le_of_lt (findStart_lt h)), bind, Except.bind]

@[simp] theorem feedLoop_zero (p : CrcParams) (buf : List Byte) (out : List Decoded) :
    feedLoop p 0 buf out = .error .loopBound := rfl

theorem feedLoop_succ (p : CrcParams) (n : Nat) (buf : List Byte) (out : List Decoded) :
    feedLoop p (n + 1) buf out =
      match feedPass p buf with
      | .error f => .error f
      | .ok (.stop _ b) => .ok (b, out)
      | .ok (.cut b r) => feedLoop p n b (collect out r) := rfl

theorem pieceLength_le (p : Params) (buf chunk : List Byte) : pieceLength p buf chunk ≤ chunk.length := by
  unfold pieceLength
  split
  · exact Nat.le_refl _
  · exact Nat.min_le_right _ _

theorem pieceRoom_pos {p : Params} {buf : List Byte} {k : Nat} (h : pieceRoom p buf = some k) : 1 ≤ k := by
  unfold pieceRoom at h
  split at h <;> cases h <;> exact Nat.le_max_left _ _

/-- Every piece of a chunk that is not empty takes a byte, whatever the limits. -/
theorem pieceLength_pos (p : Params) (buf : List Byte) {chunk : List Byte} (h : chunk ≠ []) : 1 ≤ pieceLength p buf chunk := by
  have hc : 1 ≤ chunk.length := List.length_pos_iff.mpr h
  unfold pieceLength
  split
  · exact hc
  · exact le_min (pieceRoom_pos ‹_›) hc

/-- A build without limits takes a chunk whole (R30). -/
theorem pieceLength_unlimited {p : Params} (h1 : p.maxChunk = none) (h2 : p.bufCap = none) (buf chunk : List Byte) :
    pieceLength p buf chunk = chunk.length := by
  simp [pieceLength, pieceRoom, h1, h2]

/-- A chunk within `MAX_CHUNK` that fits `BUF_CAP` beside the bytes held is taken whole. -/
theorem pieceLength_fits {p : Params} {buf chunk : List Byte} (h1 : ∀ k, p.maxChunk = some k → chunk.length ≤ k)
    (h2 : ∀ c, p.bufCap = some c → buf.length + chunk.length ≤ c) : pieceLength p buf chunk = chunk.length := by
  unfold pieceLength pieceRoom
  cases hm : p.maxChunk <;> cases hc : p.bufCap <;> simp only [hm, hc] at h1 h2 ⊢
  · have := h2 _ rfl; omega
  · have := h1 _ rfl; omega
  · have := h1 _ rfl; have := h2 _ rfl; omega

/-- With a byte of room, a piece is within `MAX_CHUNK` and keeps the buffer within `BUF_CAP` (R211). -/
theorem pieceLength_within (p : Params) (buf chunk : List Byte) :
    (∀ k, p.maxChunk = some k → 1 ≤ k → pieceLength p buf chunk ≤ k) ∧
    (∀ c, p.bufCap = some c → buf.length < c → buf.length + pieceLength p buf chunk ≤ c) := by
  unfold pieceLength pieceRoom
  cases hm : p.maxChunk <;> cases hc : p.bufCap <;> simp <;> omega

/-- A chunk taken whole is one piece (R110). -/
theorem feedPieces_whole {p : Params} {buf chunk : List Byte} {out : List Decoded} (fuel : Nat)
    (h : pieceLength p buf chunk = chunk.length) : feedPieces p fuel buf chunk out = feedPiece p.crc buf chunk out := by
  cases fuel with
  | zero => rfl
  | succ n =>
    simp only [feedPieces, h, List.take_length, Nat.le_refl, if_true]
    cases feedPiece p.crc buf chunk out <;> rfl

/-- All `feedAll` can answer: the pieces' outcome; it never refuses (R110). -/
theorem feedAll_cases (p : Params) (buf chunk : List Byte) :
    (∃ f, feedPieces p chunk.length buf chunk [] = .error f ∧ feedAll p buf chunk = .fault f) ∨
    (∃ r, feedPieces p chunk.length buf chunk [] = .ok r ∧ feedAll p buf chunk = .next r) := by
  unfold feedAll
  cases hf : feedPieces p chunk.length buf chunk [] with
  | error f => exact .inl ⟨f, rfl, rfl⟩
  | ok r => exact .inr ⟨r, rfl, rfl⟩

/-- If `FEED` answers a next state, it is this one (R110). -/
theorem execFeed_next {chunk : List Byte} {s t : State} (h : execFeed chunk s = .next t) :
    ∃ b out, feedAll s.params s.buf chunk = .next (b, out) ∧ t = (s.start.setBuf b).deliver (messagesResult out) := by
  obtain ⟨⟨b, out⟩, hr, ht⟩ := andThen_next h
  cases ht
  exact ⟨b, out, hr, rfl⟩

end Sys2Proof.Machine
end

