-- ==== Sys2Proof/Laws/Router.lean ====
section
/-! SUPPORT. What routing one message can do, said once (spec/44_router.md R150). -/

namespace Sys2Proof.Machine

/-- All that routing a message can do: an accepted orientation, a status, or nothing (R150). -/
theorem routeMessage_cases (m : Message) (s : State) :
    (∃ o, m.messageId = msgData ∧ odecode m.payload = some o ∧ routeMessage m s = (s.setLatest o).notify o) ∨
    (∃ code rest, m.messageId = msgControl ∧ m.payload = code :: rest ∧ routeMessage m s = s.emit (.statusEvt code)) ∨
    routeMessage m s = s := by
  unfold routeMessage
  split
  · rename_i hid
    split
    · rename_i o ho
      exact .inl ⟨o, hid, ho, rfl⟩
    · exact .inr (.inr rfl)
  · split
    · rename_i hid
      split
      · rename_i code rest hp
        exact .inr (.inl ⟨code, rest, hid, hp, rfl⟩)
      · exact .inr (.inr rfl)
    · exact .inr (.inr rfl)

@[simp] theorem routeMessage_buf (m : Message) (s : State) : (routeMessage m s).buf = s.buf := by
  obtain ⟨o, -, -, h⟩ | ⟨c, r, -, -, h⟩ | h := routeMessage_cases m s <;> simp [h]

@[simp] theorem routeMessage_obs (m : Message) (s : State) : (routeMessage m s).obs = s.obs := by
  obtain ⟨o, -, -, h⟩ | ⟨c, r, -, -, h⟩ | h := routeMessage_cases m s <;> simp [h]

@[simp] theorem routeMessage_params (m : Message) (s : State) : (routeMessage m s).params = s.params := by
  obtain ⟨o, -, -, h⟩ | ⟨c, r, -, -, h⟩ | h := routeMessage_cases m s <;> simp [h]

@[simp] theorem routeMessage_requests (m : Message) (s : State) : (routeMessage m s).requests = s.requests := by
  obtain ⟨o, -, -, h⟩ | ⟨c, r, -, -, h⟩ | h := routeMessage_cases m s <;> simp [h]

@[simp] theorem routeMessage_result (m : Message) (s : State) : (routeMessage m s).result = s.result := by
  obtain ⟨o, -, -, h⟩ | ⟨c, r, -, -, h⟩ | h := routeMessage_cases m s <;> simp [h]

@[simp] theorem routeAll_nil (s : State) : routeAll [] s = s := rfl

@[simp] theorem routeAll_cons (d : Decoded) (ds : List Decoded) (s : State) :
    routeAll (d :: ds) s = routeAll ds (routeMessage d.msg s) := rfl

/-- If a chunk through the reassembler and the router answers a next state, it is this one (R155). -/
theorem sfeedOp_next {chunk : List Byte} {s t : State} (h : sfeedOp chunk s = .next t) :
    ∃ b out, feedAll s.params s.buf chunk = .next (b, out) ∧
      t = (routeAll out (s.start.setBuf b)).deliver (messagesResult out) := by
  obtain ⟨⟨b, out⟩, hr, ht⟩ := andThen_next h
  cases ht
  exact ⟨b, out, hr, rfl⟩

end Sys2Proof.Machine
end

