-- ==== Sys2Proof/Tests/Slice0.lean ====
section
/-! SUPPORT. Tests of the model: expected values are those of spec/95_test_vectors.md (named by their ids there) or worked by hand from
the rule cited. The last part meets the hypotheses of every statement that has some. -/

open Sys2Proof Sys2Proof.Machine

/-- The next state of an outcome, if it is one. -/
def nextOf (o : Host.Outcome State Fault Refusal) : Option State :=
  match o with
  | .next s => some s
  | .fault _ => none
  | .refused _ => none

/-- The refusal of an outcome, if it is one. -/
def refusalOf (o : Host.Outcome State Fault Refusal) : Option Refusal :=
  match o with
  | .next _ => none
  | .fault _ => none
  | .refused r => some r

/-- The result an operation hands back from a state. -/
def resultOf (i : Instr) (s : State) : Option Result := (nextOf (exec i s)).map (·.result)

theorem next_of_resultOf {i : Instr} {s : State} {r : Result} (h : resultOf i s = some r) :
    ∃ t, exec i s = .next t ∧ t.result = r := by
  unfold resultOf nextOf at h
  cases he : exec i s with
  | next t => exact ⟨t, rfl, by simpa [he] using h⟩
  | fault f => simp [he] at h
  | refused q => simp [he] at h

/-- The buffer and the messages after a chunk is fed to a buffer. -/
def fed (buf chunk : List Byte) : Option (List Byte × Result) :=
  (nextOf (exec (.feed chunk) { State.reset with buf := buf })).map fun t => (t.buf, t.result)

/-- A session with an observer. -/
def watched : State := { State.reset with obs := some 7 }

/-- Frame E1 of 95_test_vectors.md, `CMD_ENABLE(1)`. -/
def frameE1 : List Byte := [0xFD, 0x04, 0x00, 0x7C, 0x01, 0x15, 0x5D, 0xDD]
/-- Frame E12, an orientation message. -/
def frameE12 : List Byte := [0xFD, 0x0C, 0x00, 0xC2, 0x20, 0x10, 0x27, 0, 0, 0, 0, 0x10, 0x27, 0xA8, 0xF2, 0xDD]
/-- Frame E6, an attach-success response. -/
def frameE6 : List Byte := [0xFD, 0x04, 0x10, 0xC3, 0x02, 0x45, 0x63, 0xDD]

/-! ### Well-formedness: an ill-formed term for each check -/

theorem test_wf_euler_too_large : Instr.wellFormed (.euler ⟨.grid 32768, .grid 0, .grid 0, .grid 0⟩) = false := by decide
theorem test_wf_euler_too_small : Instr.wellFormed (.euler ⟨.grid 0, .grid (-32769), .grid 0, .grid 0⟩) = false := by decide
theorem test_wf_euler_off_grid : Instr.wellFormed (.euler ⟨.grid 0, .grid 0, .offGrid, .grid 0⟩) = false := by decide
theorem test_wf_rotmat_last : Instr.wellFormed (.rotmat ⟨.grid 0, .grid 0, .grid 0, .grid 40000⟩) = false := by decide
theorem test_wf_rotmat_extremes : Instr.wellFormed (.rotmat ⟨.grid (-32768), .grid 32767, .grid 0, .grid 1⟩) = true := by decide

/-! ### Decoding: every row's word, written out from the table's encoding -/

theorem test_decode_crc16 : decode { code := .op 0b0000#4, data := [1] } = .ok (.crc16 [1]) := by rfl
theorem test_decode_encode : decode { code := .op 0b0001#4, data := [1], messageId := 124, isResponse := true } = .ok (.encode 124 [1] true) := by rfl
theorem test_decode_decode : decode { code := .op 0b0010#4, data := [2] } = .ok (.decode [2]) := by rfl
theorem test_decode_feed : decode { code := .op 0b0011#4, data := [3] } = .ok (.feed [3]) := by rfl
theorem test_decode_odecode : decode { code := .op 0b0100#4, data := [32] } = .ok (.odecode [32]) := by rfl
theorem test_decode_euler : decode { code := .op 0b0101#4, quat := ⟨.grid 1, .grid 2, .grid 3, .grid 4⟩ } = .ok (.euler ⟨.grid 1, .grid 2, .grid 3, .grid 4⟩) := by rfl
theorem test_decode_rotmat : decode { code := .op 0b0110#4, quat := ⟨.grid 1, .grid 2, .grid 3, .grid 4⟩ } = .ok (.rotmat ⟨.grid 1, .grid 2, .grid 3, .grid 4⟩) := by rfl
theorem test_decode_route : decode { code := .op 0b0111#4, data := [2], messageId := 195 } = .ok (.route ⟨195, [2], false⟩) := by rfl
theorem test_decode_sfeed : decode { code := .op 0b1000#4, data := [0xFD] } = .ok (.sfeed [0xFD]) := by rfl
theorem test_decode_latestRd : decode { code := .op 0b1001#4 } = .ok .latestRd := by rfl
theorem test_decode_subscribe : decode { code := .op 0b1010#4, handle := 5 } = .ok (.subscribe 5) := by rfl
theorem test_decode_reset : decode { code := .op 0b1011#4 } = .ok .reset := by rfl
theorem test_decode_reserved12 : decode { code := .op 0b1100#4 } = .ok .reserved12 := by rfl
theorem test_decode_reserved13 : decode { code := .op 0b1101#4 } = .ok .reserved13 := by rfl
theorem test_decode_reserved14 : decode { code := .op 0b1110#4 } = .ok .reserved14 := by rfl
theorem test_decode_reserved15 : decode { code := .op 0b1111#4 } = .ok .reserved15 := by rfl
theorem test_decode_frameHeader : decode { code := .header16 0b0001000000000100#16 } = .ok (.frameHeader 0x1004) := by rfl
theorem test_decode_sentStart : decode { code := .byteFirst 0b11111101#8 } = .ok .sentStart := by rfl
theorem test_decode_sentEnd : decode { code := .byteLast 0b11011101#8 } = .ok .sentEnd := by rfl
theorem test_decode_msgEnable : decode { code := .messageId 0b01111100#8, data := [1] } = .ok (.msgSetSpatialAudioEnable [1] false) := by rfl
theorem test_decode_msgData : decode { code := .messageId 0b11000010#8, data := [32] } = .ok (.msgSpatialAudioData [32] false) := by rfl
theorem test_decode_msgControl : decode { code := .messageId 0b11000011#8, data := [2], isResponse := true } = .ok (.msgSpatialAudioControl [2] true) := by rfl
theorem test_decode_ctrlAttach : decode { code := .controlCode 0b00000000#8 } = .ok (.ctrlAttach [] false) := by rfl
theorem test_decode_ctrlDetach : decode { code := .controlCode 0b00000001#8 } = .ok (.ctrlDetach [] false) := by rfl
theorem test_decode_ctrlAttachSuccess : decode { code := .controlCode 0b00000010#8 } = .ok (.ctrlAttachSuccess [] false) := by rfl
theorem test_decode_ctrlDetachSuccess : decode { code := .controlCode 0b00000011#8 } = .ok (.ctrlDetachSuccess [] false) := by rfl
theorem test_decode_ctrlKeepAlive : decode { code := .controlCode 0b00000100#8, data := [0x99] } = .ok (.ctrlKeepAlive [0x99] false) := by rfl
theorem test_decode_subtypeOrientation : decode { code := .subtypeTag 0b00100000#8, data := [0x10] } = .ok (.subtypeOrientation [0x10] false) := by rfl
theorem test_decode_rejects_unlisted_code : decode { code := .controlCode 5 } = .error (.unlistedControlCode 5) := by rfl
theorem test_tableWord_op : decodeTableWord 8 0x08 = some (.sfeed []) := by rfl
theorem test_tableWord_header : decodeTableWord 16 0x1004 = some (.frameHeader 0x1004) := by rfl
theorem test_tableWord_sentinel : decodeTableWord 8 0xFD = some .sentStart := by rfl
theorem test_step_runs_table_word :
    nextOf (step (State.reset.withFetchWord 8 10)) = some { State.reset with obs := some 0 } := by decide

/-! ### Checksum -/

/-- K28 and the catalogue's other variants, K30 to K32: the parameters are really read. -/
theorem test_crc_check_value : crc16 defaultCrc [0x31, 0x32, 0x33, 0x34, 0x35, 0x36, 0x37, 0x38, 0x39] = 0x31C3 := by decide +kernel
theorem test_crc_ccitt_false : crc16 ⟨0x1021, 0xFFFF, false, false, 0⟩ [0x7C, 0x01] = 0x401A := by decide +kernel
theorem test_crc_kermit : crc16 ⟨0x1021, 0, true, true, 0⟩ [0x31, 0x32, 0x33, 0x34, 0x35, 0x36, 0x37, 0x38, 0x39] = 0x2189 := by decide +kernel
/-- K13, through the operation. -/
theorem test_crc16_operation : resultOf (.crc16 [0x7C, 0x01]) State.reset = some (.checksum 0x5D15) := by decide +kernel

/-! ### Frame Codec -/

/-- E6. -/
theorem test_encode_response : resultOf (.encode 195 [2] true) State.reset = some (.frame frameE6) := by decide +kernel
/-- E11: sentinel values inside the frame are not escaped. -/
theorem test_encode_no_escape :
    resultOf (.encode 253 [0xDD, 0xFD] false) State.reset = some (.frame [0xFD, 5, 0, 0xFD, 0xDD, 0xFD, 0xCA, 0xFC, 0xDD]) := by decide +kernel
/-- E16. -/
theorem test_encode_too_large :
    resultOf (.encode 7 (List.replicate 1021 0) false) State.reset = some (.raised (.payloadTooLarge 1021)) := by decide +kernel
/-- D4: the unassigned header bits are ignored. -/
theorem test_decode_upper_bits :
    resultOf (.decode [0xFD, 0x04, 0xEC, 0xC3, 0x02, 0x45, 0x63, 0xDD]) State.reset = some (.decoded (some ⟨195, [2], false⟩) (some true)) := by decide +kernel
/-- D20: a longer size over the same bytes, wrong checksum accepted. -/
theorem test_decode_wrong_checksum :
    resultOf (.decode [0xFD, 5, 0, 0xC3, 0x02, 0x45, 0x63, 0xDD, 0xDD]) State.reset = some (.decoded (some ⟨195, [2, 0x45], false⟩) (some false)) := by decide +kernel
/-- D12: six bytes pass the length test and are truncated. -/
theorem test_decode_six_bytes : resultOf (.decode [0xFD, 3, 0, 0x41, 0xE5, 0x58]) State.reset = some (.decoded none none) := by decide +kernel
/-- D11, D8, D7, D6: the cause of "none", in the order of R178. -/
theorem test_decode_causes :
    decodeFrame defaultCrc [0xFC, 3, 0, 0x41, 0xE5] = .error .tooShort ∧
    decodeFrame defaultCrc [0xFC, 4, 0x10, 0xC3, 2, 0x45] = .error .badStart ∧
    decodeFrame defaultCrc [0xFD, 4, 0x10, 0xC3, 2, 0x45, 0x63] = .error .truncated ∧
    decodeFrame defaultCrc [0xFD, 4, 0x10, 0xC3, 2, 0x45, 0x63, 0xDC] = .error .badEnd := ⟨rfl, rfl, rfl, rfl⟩

/-! ### Stream Reassembler -/

/-- F1. -/
theorem test_feed_garbage_and_tail :
    fed [] [0xAA, 0xFD, 3, 0, 0x41, 0xE5, 0x58, 0xDD, 0xFD] = some ([0xFD], .messages [⟨65, [], false⟩] [true]) := by decide +kernel
/-- F14: a size of 0 cuts a four-byte candidate, which is lost. -/
theorem test_feed_short_candidate :
    fed [] [0xFD, 0, 0, 0x41, 0xE5, 0x58, 0xDD] = some ([0xE5, 0x58, 0xDD], .messages [] []) := by decide +kernel
/-- F8: after leading bytes are dropped the loop condition is not tested again. -/
theorem test_feed_no_retest : fed [] [0x11, 0x22, 0xFD, 0, 0, 0x33] = some ([], .messages [] []) := by decide +kernel
/-- F9, the exit of step 2c. -/
theorem test_feed_header_wait : fed [] [0x11, 0x22, 0x33, 0x44, 0xFD, 3] = some ([0xFD, 3], .messages [] []) := by decide +kernel
/-- A build with `MAX_CHUNK` = 3 takes E1 in pieces and answers the same message. -/
theorem test_feed_in_pieces :
    (nextOf (exec (.feed frameE1) { State.reset with params := ⟨defaultCrc, some 3, none⟩ })).map (·.result) =
      some (.messages [⟨124, [1], false⟩] [true]) := by decide +kernel
/-- A build without room for a byte drops none (D7): E1 comes out all the same. -/
theorem test_feed_without_room :
    (nextOf (exec (.feed frameE1) { State.reset with params := ⟨defaultCrc, some 0, some 0⟩ })).map (fun t => (t.buf, t.result)) =
      some ([], .messages [⟨124, [1], false⟩] [true]) := by decide +kernel

/-! ### Orientation -/

/-- O8: the extremes of `i16`, `w` last. -/
theorem test_odecode_extremes : odecode [0x20, 0x00, 0x80, 0xFF, 0xFF, 0xFF, 0x7F, 0x01, 0x00] = some ⟨-32768, -1, 32767, 1⟩ := by decide
/-- O3 and O4. -/
theorem test_odecode_rejects : odecode [0x20, 0x10, 0x27, 0, 0, 0, 0, 0x10] = none ∧ odecode [0x21, 0x10, 0x27, 0, 0, 0, 0, 0x10, 0x27] = none := by decide
/-- S1's field values: 1.0 and 0.0 as IEEE 754 writes them; O9's 0.5 and -0.5. -/
theorem test_rendering : toF64 10000 = 0x3FF0000000000000 ∧ toF64 0 = 0 ∧ toF64 5000 = 0x3FE0000000000000 ∧ toF64 (-5000) = 0xBFE0000000000000 := by decide +kernel
/-- 0.0001 is not exact: its nearest binary64 is `3F1A36E2EB1C432D`, a standard value. -/
theorem test_rendering_inexact : toF64 1 = 0x3F1A36E2EB1C432D := by decide +kernel
/-- U11. -/
theorem test_euler_args : eulerArgs ⟨1821, 2448, 2831, 9093⟩ = ⟨46977282, 81382510, 34208826, 60400182, 71985470⟩ := by decide +kernel
/-- U19: the largest magnitudes. -/
theorem test_euler_args_extreme : eulerArgs ⟨-32768, -32768, -32768, -32768⟩ = ⟨4294967296, -4194967296, 0, 4294967296, -4194967296⟩ := by decide +kernel
/-- M9. -/
theorem test_rotmat : resultOf (.rotmat ⟨.grid 1821, .grid 2448, .grid 2831, .grid 9093⟩) State.reset =
    some (.matrix ⟨71985470, -42568950, 54829830, 60400182, 77338796, -19256130, -34208826, 46977282, 81382510⟩) := by decide +kernel
theorem test_euler_refuses : refusalOf (exec (.euler ⟨.grid 0, .offGrid, .grid 0, .grid 0⟩) State.reset) = some .orientationOutsideDomain := by decide
theorem test_rotmat_refuses : refusalOf (exec (.rotmat ⟨.grid 0, .grid 32768, .grid 0, .grid 0⟩) State.reset) = some .orientationOutsideDomain := by decide

/-! ### Router, reset, wire rows -/

/-- T1. -/
theorem test_route_orientation :
    nextOf (exec (.route ⟨194, [0x20, 0x10, 0x27, 0, 0, 0, 0, 0x10, 0x27], false⟩) watched) =
      some { watched with latest := some ⟨10000, 0, 0, 10000⟩, events := [.oriEvt 7 ⟨10000, 0, 0, 10000⟩] } := by decide +kernel
/-- T5 and T7. -/
theorem test_route_control :
    nextOf (exec (.route ⟨195, [4, 0x99], false⟩) watched) = some { watched with events := [.statusEvt 4] } ∧
    nextOf (exec (.route ⟨195, [], false⟩) watched) = some watched := by decide +kernel
/-- R155's worked example, with E6 before it: the events in message order. -/
theorem test_sfeed_two_frames :
    (nextOf (exec (.sfeed (frameE6 ++ frameE12)) watched)).map (fun t => (t.buf, t.latest, t.events)) =
      some ([], some ⟨10000, 0, 0, 10000⟩, [.statusEvt 2, .oriEvt 7 ⟨10000, 0, 0, 10000⟩]) := by decide +kernel
theorem test_latestRd : resultOf .latestRd { State.reset with latest := some ⟨10000, 0, 0, 10000⟩ } =
    some (.orientation (some ⟨10000, 0, 0, 10000⟩) (some ⟨0x3FF0000000000000, 0, 0, 0x3FF0000000000000⟩)) := by decide +kernel
theorem test_subscribe_replaces : nextOf (exec (.subscribe 8) watched) = some { watched with obs := some 8 } := by decide
/-- R195's worked example. -/
theorem test_reset_mid_frame : nextOf (exec .reset { watched with buf := [0xFD, 4, 0] }) = some State.reset := by decide
theorem test_reserved : refusalOf (exec .reserved14 State.reset) = some (.reservedSelectCode 14) := by decide
/-- The last byte of E6 arrives: the frame completes and its status is surfaced (R155). -/
theorem test_sentEnd_completes :
    (nextOf (exec .sentEnd { State.reset with buf := [0xFD, 0x04, 0x10, 0xC3, 0x02, 0x45, 0x63] })).map (fun t => (t.buf, t.events)) =
      some ([], [.statusEvt 2]) := by decide +kernel
/-- The header of E6 arrives low byte first. -/
theorem test_frameHeader_bytes :
    (nextOf (exec (.frameHeader 0x1004) { State.reset with buf := [0xFD] })).map (·.buf) = some [0xFD, 0x04, 0x10] := by decide +kernel
theorem test_ctrlKeepAlive : (nextOf (exec (.ctrlKeepAlive [] false) State.reset)).map (·.events) = some [.statusEvt 4] := by decide +kernel
/-- The requests run in the order of issue: P4's observer change. -/
theorem test_steps_in_order :
    ((nextOf (step { State.reset with requests := [encode (.subscribe 1), encode (.subscribe 2)] })).bind fun t => nextOf (step t)) =
      some { State.reset with obs := some 2 } := by decide

/-! ### The hypotheses of the statements can be met -/

/-- With the defaults every chunk is taken whole; with limits, one that fits exactly. -/
theorem witness_taken_whole (buf chunk : List Byte) : TakenWhole State.reset.params buf chunk := by
  simp [TakenWhole, State.reset, defaultParams]
theorem witness_taken_whole_limited : TakenWhole ⟨defaultCrc, some 3, some 5⟩ [0xFD, 3] [0, 0x41, 0xE5] := by
  simp [TakenWhole]
/-- A chunk that is not taken whole: a piece that fills the buffer, and one byte where there is no room. -/
theorem witness_pieces : pieceLength ⟨defaultCrc, some 100, some 5⟩ [0xFD, 4] frameE1 = 3 ∧ 3 < frameE1.length ∧
    pieceLength ⟨defaultCrc, some 0, some 2⟩ [0xFD, 4, 0] frameE1 = 1 := by decide
theorem witness_issued_operation :
    ({ State.reset with requests := [{ code := .op 9 }] } : State).requests = [{ code := .op 9 }] ∧
      decode { code := .op 9 } = .ok .latestRd := ⟨rfl, rfl⟩
theorem witness_issued_rejected :
    ({ State.reset with requests := [{ code := .byteFirst 0 }] } : State).requests = [{ code := .byteFirst 0 }] ∧
      decode { code := .byteFirst 0 } = .error (.notSentStart 0) := ⟨rfl, rfl⟩
theorem witness_idle : State.reset.requests = [] := rfl
theorem witness_table_form : defaultCrc.refin = false ∧ defaultCrc.poly = 0x1021 := ⟨rfl, rfl⟩
theorem witness_corner_frame : (encodeFrame defaultCrc 0 (List.replicate 2 0) true).toOption.isSome = true := by decide +kernel
theorem witness_odd_polynomial : defaultCrc.poly.getLsbD 0 = true ∧ (1 : Byte) ≠ 2 := by decide
theorem witness_encode_longest : (List.replicate 1020 (0xAB : Byte)).length ≤ 1020 := List.length_replicate.le
theorem witness_encode_empty : ([] : List Byte).length ≤ 1020 := by simp
theorem witness_encode_too_large : 1021 ≤ (List.replicate 1021 (0 : Byte)).length := List.length_replicate.ge
theorem witness_raised : ∃ t, exec (.encode 7 (List.replicate 1021 0) false) State.reset = .next t ∧ t.result = .raised (.payloadTooLarge 1021) :=
  next_of_resultOf test_encode_too_large
theorem witness_decoded : ∃ t, exec (.decode frameE6) State.reset = .next t ∧
    t.result = .decoded (some ⟨195, [2], true⟩) (some true) := by
  refine ⟨_, rfl, ?_⟩
  decide +kernel
theorem witness_unassigned_bits : (0xEC : Byte) &&& 0x13 = 0 ∧ State.reset.buf = [] ∧ frameE6[0]? = some 0xFD ∧
    TakenWhole State.reset.params State.reset.buf frameE6 ∧ (encodeFrame defaultCrc 195 [2] true).toOption = some frameE6 :=
  ⟨by decide, rfl, by decide, witness_taken_whole _ _, by decide +kernel⟩
theorem witness_short_size_direct : sizeAt [0xFD, 2, 0, 0x41, 0xE5, 0x58, 0xDD] < 3 ∧
    7 ≤ ([0xFD, 2, 0, 0x41, 0xE5, 0x58, 0xDD] : List Byte).length ∧ ([0xFD, 2, 0, 0x41, 0xE5, 0x58, 0xDD] : List Byte)[0]? = some 0xFD ∧
    ([0xFD, 2, 0, 0x41, 0xE5, 0x58, 0xDD] : List Byte)[6]? = some 0xDD := by decide
theorem witness_short_size_candidate : sizeAt [0xFD, 2, 0, 0x41, 0xE5, 0x58] < 3 ∧
    ([0xFD, 2, 0, 0x41, 0xE5, 0x58] : List Byte).length = sizeAt [0xFD, 2, 0, 0x41, 0xE5, 0x58] + 4 := by decide
theorem witness_pass_cuts : ∃ b r, feedPass defaultCrc [0xFD, 0, 0, 0x41, 0xE5, 0x58, 0xDD] = .ok (.cut b r) := ⟨_, _, rfl⟩
/-- Both resting forms are reached: F7's five bytes, and F17's partial frame. -/
theorem witness_resting_short : ∃ t, exec (.feed [1, 2, 3, 4, 5]) State.reset = .next t ∧ t.buf.length < 6 := ⟨_, rfl, by decide⟩
theorem witness_resting_partial : ∃ t, exec (.feed [0xFD, 0xFD, 3, 0, 0x41, 0xE5, 0x58, 0xDD]) State.reset = .next t ∧
    6 ≤ t.buf.length ∧ t.buf.length < sizeAt t.buf + 4 := ⟨_, rfl, by decide +kernel, by decide +kernel⟩
theorem witness_desync : 6 ≤ (State.reset.buf ++ [1, 2, 3, 4, 5, 6]).length ∧ (0xFD : Byte) ∉ State.reset.buf ++ [1, 2, 3, 4, 5, 6] := by decide
theorem witness_short_stays : (State.reset.buf ++ [0xFD, 2, 3, 4, 5]).length < 6 := by decide
theorem witness_garbage : State.reset.buf = [] ∧ (0xFD : Byte) ∉ [0x00, 0x11, 0x22] ∧
    (⟨124, [1], false⟩ : Message).payload.length ≤ 1020 := by decide
theorem witness_failed_candidate : 6 ≤ ([0xFD, 0, 0, 0x41, 0xE5, 0x58, 0xDD] : List Byte).length ∧
    ([0xFD, 0, 0, 0x41, 0xE5, 0x58, 0xDD] : List Byte)[0]? = some 0xFD ∧
    sizeAt [0xFD, 0, 0, 0x41, 0xE5, 0x58, 0xDD] + 4 ≤ ([0xFD, 0, 0, 0x41, 0xE5, 0x58, 0xDD] : List Byte).length ∧
    (decodeFrame defaultCrc [0xFD, 0, 0, 0x41]).toOption = none := by decide +kernel
theorem witness_at_rest_empty : Resting State.reset.buf := Or.inl (by decide)
theorem witness_at_rest_partial : Resting [0xFD, 0x0C, 0x00, 0xC2, 0x20, 0x10, 0x27] := Or.inr ⟨by decide, by decide⟩
theorem witness_frame_bytes : 6 < (frameOf State.reset.params.crc ⟨124, [1], false⟩).length := by decide +kernel
theorem witness_chunks_of_frames :
    [frameE1.take 3, frameE1.drop 3 ++ frameE6].flatten = streamOf State.reset.params.crc [⟨124, [1], false⟩, ⟨195, [2], true⟩] := by decide +kernel
theorem witness_two_chunkings : [frameE1].flatten = [frameE1.take 3, frameE1.drop 3].flatten := by decide
theorem witness_route_accepts : odecode [0x20, 0x10, 0x27, 0, 0, 0, 0, 0x10, 0x27] = some ⟨10000, 0, 0, 10000⟩ ∧ watched.obs = some 7 ∧
    State.reset.obs = none := by decide
theorem witness_route_other : odecode [32] = none ∧ (193 : Byte) ≠ 194 ∧ (193 : Byte) ≠ 195 ∧ (196 : Byte) ≠ 195 := by decide
theorem witness_latest_set : ∃ t, exec (.route ⟨194, [0x20, 0x10, 0x27, 0, 0, 0, 0, 0x10, 0x27], false⟩) State.reset = .next t ∧
    t.latest = some ⟨10000, 0, 0, 10000⟩ ∧ State.reset.latest ≠ some ⟨10000, 0, 0, 10000⟩ := ⟨_, rfl, by decide +kernel, by decide⟩
theorem witness_latest_cleared : ∃ t, exec .reset { State.reset with latest := some ⟨1, 2, 3, 4⟩ } = .next t ∧ t.latest = none ∧
    ({ State.reset with latest := some ⟨1, 2, 3, 4⟩ } : State).latest ≠ none := ⟨_, rfl, rfl, by decide⟩
theorem witness_sfeed_then_read :
    ({ State.reset with requests := [encode (.sfeed frameE12), encode .latestRd] } : State).requests =
      encode (.sfeed frameE12) :: encode .latestRd :: [] := rfl
theorem witness_notified : ∃ t, exec (.route ⟨194, [0x20, 0x10, 0x27, 0, 0, 0, 0, 0x10, 0x27], false⟩) watched = .next t ∧
    .oriEvt 7 ⟨10000, 0, 0, 10000⟩ ∈ t.events := ⟨_, rfl, by decide +kernel⟩
theorem witness_observer_cleared : ∃ t, exec .reset watched = .next t ∧ watched.obs ≠ none ∧ t.obs = none := ⟨_, rfl, by decide, rfl⟩
theorem witness_subscribed_twice : ∃ t u, exec (.subscribe 1) State.reset = .next t ∧ exec (.subscribe 2) t = .next u := ⟨_, _, rfl, rfl⟩
/-- The component range at both ends, and the clamp at and inside both its ends. -/
theorem witness_euler_range : (-32768 ≤ (-32768 : Int) ∧ (-32768 : Int) ≤ 32767) ∧ (-32768 ≤ (32767 : Int) ∧ (32767 : Int) ≤ 32767) := by decide
theorem witness_clamp_ends :
    (eulerArgs ⟨5000, 5000, -5000, 5000⟩).pitchNum = 100000000 ∧ (eulerArgs ⟨5000, -5000, 5000, 5000⟩).pitchNum = -100000000 ∧
    (eulerArgs ⟨0, 7071, 0, 7071⟩).pitchNum = 99998082 := by decide +kernel
theorem witness_domain : QuatArg.inDomain ⟨.grid 0, .grid 0, .grid 0, .grid 10000⟩ = true ∧
    QuatArg.inDomain ⟨.grid 0, .grid 0, .grid 0, .offGrid⟩ = false := by decide
/-- Both conventional points of roll and yaw are reached: the origin in gimbal lock, the negative abscissa with the clamp active (R139). -/
theorem witness_conventional_points :
    eulerArgs ⟨5000, 5000, -5000, 5000⟩ = ⟨0, 0, 100000000, 0, 0⟩ ∧
    eulerArgs ⟨0, -10000, 0, 10000⟩ = ⟨0, -100000000, -200000000, 0, -100000000⟩ := by decide +kernel
theorem witness_reference_angle : ∃ t : ℝ, RefAtan2Deg 0 (-1) t ∧ ∃ z : ℝ, RefAtan2Deg 0 0 z ∧ ∃ r : ℝ, RefAsinDeg 1 2 r ∧
    (0 : Int) < 2 ∧ |(1 : Int)| ≤ 2 ∧ ∃ c : ℝ, RefAsinDeg 2 2 c ∧ |(2 : Int)| ≤ 2 :=
  ⟨_, rfl, _, rfl, _, rfl, by decide, by decide, _, rfl, by decide⟩

theorem f64Near_zero {tol t : ℝ} (h : |t| ≤ tol) : F64Near tol 0 t := by
  refine ⟨0, by decide +kernel, ?_⟩
  simpa using h

/-- Numerics that answer 0 for everything meet the reference within 180 degrees. -/
theorem witness_numerics : MeetsReference ⟨fun _ _ => 0, fun _ _ => 0, fun _ => 0⟩ 180 := by
  have hpi := Real.pi_pos
  constructor
  · rintro u v t rfl
    left
    apply f64Near_zero
    rw [abs_div, abs_mul, abs_of_pos hpi, div_le_iff₀ hpi, abs_of_pos (by norm_num : (0 : ℝ) < 180), mul_comm]
    exact mul_le_mul_of_nonneg_left (Complex.abs_arg_le_pi _) (by norm_num)
  · rintro n d t - - rfl
    apply f64Near_zero
    rw [abs_div, abs_mul, abs_of_pos hpi, div_le_iff₀ hpi, abs_of_pos (by norm_num : (0 : ℝ) < 180), mul_comm]
    refine mul_le_mul_of_nonneg_left ?_ (by norm_num)
    rw [abs_le]
    constructor
    · linarith [Real.neg_pi_div_two_le_arcsin ((n : ℝ) / d)]
    · linarith [Real.arcsin_le_pi_div_two ((n : ℝ) / d)]

theorem witness_default_parameters : State.reset.params.crc = defaultCrc := rfl
theorem witness_buffer_written : ∃ t, exec .sentStart State.reset = .next t ∧ t.buf ≠ State.reset.buf := ⟨_, rfl, by decide +kernel⟩
theorem witness_pure : (∃ d, Instr.crc16 [] = .crc16 d) ∧ watched.params = State.reset.params ∧ ∃ t, exec (.crc16 []) State.reset = .next t :=
  ⟨⟨_, rfl⟩, rfl, _, rfl⟩
theorem witness_invariant : State.reset.Inv ∧ ∃ t, step (State.reset.withFetchWord 8 3) = .next t :=
  ⟨⟨Or.inl (by decide), trivial⟩, _, rfl⟩
theorem witness_refusals :
    refusalOf (step (State.reset.withFetchWord 8 12)) = some (.reservedSelectCode 12) ∧
    refusalOf (step { State.reset with requests := [encode (.euler ⟨.offGrid, .grid 0, .grid 0, .grid 0⟩)] }) = some .orientationOutsideDomain ∧
    refusalOf (step { State.reset with requests := [{ code := .subtypeTag 33 }] }) = some (.undecodable (.unlistedSubtypeTag 33)) := by decide
theorem witness_buffer_access : 2 ≤ ([1, 2] : List Byte).length ∧ 1 + 1 ≤ ([1, 2] : List Byte).length ∧ ([1, 2] : List Byte).length < 1 + 2 ∧
    ([1, 2] : List Byte).length < 3 := by decide
end

section
/-! The encoding family: the bytes of an encoded frame, offset by offset (spec/30_encoding.md R50, R51, R58), and the reserved select
codes (R67). -/

open Sys2Proof Sys2Proof.Machine

namespace Sys2Proof.Machine

/-! ### The two bytes of a 16-bit field -/

theorem le16Bytes_eq (v : U16) : le16Bytes v = [v.setWidth 8, (v >>> 8).setWidth 8] := rfl

@[simp] theorem le16Bytes_length (v : U16) : (le16Bytes v).length = 2 := rfl

@[simp] theorem natAt_le16Bytes_zero (v : U16) : natAt (le16Bytes v) 0 = v.toNat % 256 := by
  simp [natAt, le16Bytes_eq]

@[simp] theorem natAt_le16Bytes_one (v : U16) : natAt (le16Bytes v) 1 = v.toNat / 256 := by
  have hv : v.toNat < 65536 := v.isLt
  have hhigh : v.toNat / 256 < 256 := by omega
  simp [natAt, le16Bytes_eq, Nat.shiftRight_eq_div_pow, Nat.mod_eq_of_lt hhigh]

theorem natAt_drop (d : List Byte) (k i : Nat) : natAt (d.drop k) i = natAt d (k + i) := by
  simp [natAt]

/-! ### The header -/

/-- The size occupies the low ten bits of the header and the response bit stands apart from it, so the header is their sum (R51). -/
theorem makeHeader_toNat {size : Nat} (h : size ≤ 1023) (resp : Bool) :
    (makeHeader size resp).toNat = size + (if resp then 4096 else 0) := by
  have hsize : size % 2 ^ 16 = size := Nat.mod_eq_of_lt (by omega)
  cases resp with
  | false => simpa [makeHeader] using hsize
  | true =>
    have hsum : 4096 + size = 4096 ||| size := Nat.two_pow_add_eq_or_of_lt (i := 12) (by omega) 1
    simp only [makeHeader, respMask, if_true, BitVec.toNat_or, BitVec.toNat_ofNat, hsize]
    rw [Nat.or_comm, Nat.add_comm]
    exact hsum.symm

/-! ### The frame -/

/-- What stands before the payload in a frame: start sentinel, header, id (R50). -/
def frameHead (mid : Byte) (size : Nat) (resp : Bool) : List Byte :=
  [sentStart] ++ le16Bytes (makeHeader size resp) ++ [mid]

/-- What stands after the payload in a frame: checksum and end sentinel (R50). -/
def frameTail (crc : U16) : List Byte := le16Bytes crc ++ [sentEnd]

/-- The frame of a message: head, payload, tail (R50). -/
def frameBytes (p : CrcParams) (mid : Byte) (payload : List Byte) (resp : Bool) : List Byte :=
  frameHead mid (payload.length + 3) resp ++ (payload ++ frameTail (crc16 p (mid :: payload)))

@[simp] theorem frameHead_length (mid : Byte) (size : Nat) (resp : Bool) : (frameHead mid size resp).length = 4 := rfl

@[simp] theorem frameTail_length (crc : U16) : (frameTail crc).length = 3 := rfl

theorem encodeFrame_eq_frameBytes (p : CrcParams) (mid : Byte) {payload : List Byte} (resp : Bool) (h : payload.length ≤ 1020) :
    encodeFrame p mid payload resp = .ok (frameBytes p mid payload resp) := by
  obtain ⟨hlong, -⟩ | ⟨-, hframe⟩ := encodeFrame_cases p mid payload resp
  · omega
  · have hsize : 1 + payload.length + 2 = payload.length + 3 := by omega
    simp [hframe, frameBytes, frameHead, frameTail, hsize]

/-- `ENCODE` of a payload that fits sets the two outputs and nothing else (R90). -/
theorem exec_encode_next (mid : Byte) {payload : List Byte} (resp : Bool) (s : State) (h : payload.length ≤ 1020) :
    exec (.encode mid payload resp) s =
      .next { s with result := .frame (frameBytes s.params.crc mid payload resp), events := [] } := by
  change execEncode mid payload resp s = _
  rw [execEncode, encodeFrame_eq_frameBytes _ _ _ h]
  rfl

section
variable (p : CrcParams) (mid : Byte) (payload : List Byte) (resp : Bool)

@[simp] theorem frameBytes_length : (frameBytes p mid payload resp).length = payload.length + 7 := by
  simp only [frameBytes, List.length_append, frameHead_length, frameTail_length]
  omega

theorem frameBytes_start : (frameBytes p mid payload resp)[0]? = some sentStart := rfl

theorem frameBytes_messageId : (frameBytes p mid payload resp)[3]? = some mid := rfl

theorem frameBytes_payload : ((frameBytes p mid payload resp).drop 4).take payload.length = payload := by
  rw [frameBytes, List.drop_left' (frameHead_length ..), List.take_left]

/-- The bytes from the checksum on are the tail's. -/
theorem frameBytes_drop_payload :
    (frameBytes p mid payload resp).drop (4 + payload.length) = frameTail (crc16 p (mid :: payload)) := by
  rw [← List.drop_drop, frameBytes, List.drop_left' (frameHead_length ..), List.drop_left]

theorem frameBytes_end : (frameBytes p mid payload resp)[payload.length + 6]? = some sentEnd := by
  have hindex : payload.length + 6 = 4 + payload.length + 2 := by omega
  rw [hindex, ← List.getElem?_drop, frameBytes_drop_payload]
  rfl

theorem natAt_frameBytes_headerLow {payload : List Byte} (h : payload.length ≤ 1020) :
    natAt (frameBytes p mid payload resp) 1 = (payload.length + 3) % 256 := by
  have hlow : natAt (frameBytes p mid payload resp) 1 = natAt (le16Bytes (makeHeader (payload.length + 3) resp)) 0 := rfl
  rw [hlow, natAt_le16Bytes_zero, makeHeader_toNat (by omega)]
  split <;> omega

theorem natAt_frameBytes_headerHigh {payload : List Byte} (h : payload.length ≤ 1020) :
    natAt (frameBytes p mid payload resp) 2 = (payload.length + 3) / 256 + (if resp then 16 else 0) := by
  have hhigh : natAt (frameBytes p mid payload resp) 2 = natAt (le16Bytes (makeHeader (payload.length + 3) resp)) 1 := rfl
  rw [hhigh, natAt_le16Bytes_one, makeHeader_toNat (by omega)]
  split <;> omega

theorem natAt_frameBytes_checksumLow :
    natAt (frameBytes p mid payload resp) (4 + payload.length) = (crc16 p (mid :: payload)).toNat % 256 := by
  rw [← Nat.add_zero (4 + payload.length), ← natAt_drop, frameBytes_drop_payload, ← natAt_le16Bytes_zero]
  rfl

theorem natAt_frameBytes_checksumHigh :
    natAt (frameBytes p mid payload resp) (5 + payload.length) = (crc16 p (mid :: payload)).toNat / 256 := by
  have hindex : 5 + payload.length = 4 + payload.length + 1 := by omega
  rw [hindex, ← natAt_drop, frameBytes_drop_payload, ← natAt_le16Bytes_one]
  rfl

/-- The response bit is bit 4 of the header's high byte, above the two top bits of the size (R51). -/
theorem natAt_frameBytes_headerHigh_range {payload : List Byte} (h : payload.length ≤ 1020) :
    natAt (frameBytes p mid payload resp) 2 ≤ 3 ∨
      (16 ≤ natAt (frameBytes p mid payload resp) 2 ∧ natAt (frameBytes p mid payload resp) 2 ≤ 19) := by
  rw [natAt_frameBytes_headerHigh p mid resp h]
  split
  · exact .inr ⟨by omega, by omega⟩
  · exact .inl (by omega)

end

/-! ### The reserved select codes -/

/-- The four reserved codes have one meaning, the refusal that names the code (R67). -/
theorem exec_reserved (s : State) :
    exec .reserved12 s = refuseReserved 12 ∧ exec .reserved13 s = refuseReserved 13 ∧
    exec .reserved14 s = refuseReserved 14 ∧ exec .reserved15 s = refuseReserved 15 :=
  ⟨rfl, rfl, rfl, rfl⟩

end Sys2Proof.Machine

/-- Settles O12: the answer is `frameBytes`, whose bytes the lemmas above give offset by offset. -/
theorem encodeAnswersTheFrame : Obligations.EncodeAnswersTheFrame := by
  intro mid payload resp s h
  have hlen := frameBytes_length s.params.crc mid payload resp
  have hlast : (frameBytes s.params.crc mid payload resp).length - 1 = payload.length + 6 := by omega
  refine ⟨frameBytes s.params.crc mid payload resp, exec_encode_next mid resp s h, hlen, by omega, by omega,
    frameBytes_start .., ?_, natAt_frameBytes_headerLow _ mid resp h, natAt_frameBytes_headerHigh _ mid resp h,
    natAt_frameBytes_headerHigh_range _ mid resp h, frameBytes_messageId .., frameBytes_payload ..,
    natAt_frameBytes_checksumLow .., natAt_frameBytes_checksumHigh ..⟩
  rw [hlast]
  exact frameBytes_end ..

/-- Settles O46: each reserved code's meaning is the refusal by that code. -/
theorem reservedSelectCodesAreRefused : Obligations.ReservedSelectCodesAreRefused :=
  exec_reserved

end

section
/-! The checksum family: every stage of `CRC16` is injective when the generator's lowest bit is set (spec/40_checksum.md R82), so a
changed byte is never lost. -/

open Sys2Proof Sys2Proof.Machine

namespace Sys2Proof.Machine

/-! ### One turn of the inner loop -/

/-- The test of R82, `crc & 0x8000 ≠ 0`, reads the register's top bit. -/
theorem topBitTest_eq_msb (crc : U16) : (crc &&& 0x8000 != 0) = crc.msb := by
  have hmask : (0x8000 : U16) = BitVec.twoPow 16 15 := rfl
  rw [hmask, BitVec.and_twoPow, BitVec.msb_eq_getLsbD_last]
  cases crc.getLsbD (16 - 1) <;> rfl

/-- A turn shifts left and adds the generator or nothing, as the outgoing bit says (R82). -/
theorem crcShift_eq_xor (p : CrcParams) (crc : U16) :
    crcShift p crc = (crc <<< 1) ^^^ (if crc.msb then p.poly else 0) := by
  rw [crcShift, topBitTest_eq_msb]
  cases crc.msb <;> simp

/-- With an odd generator the bit shifted out comes back as bit 0, so a turn loses nothing. -/
theorem crcShift_getLsbD_zero {p : CrcParams} (hodd : p.poly.getLsbD 0 = true) (crc : U16) :
    (crcShift p crc).getLsbD 0 = crc.msb := by
  rw [crcShift_eq_xor, BitVec.getLsbD_xor, BitVec.getLsbD_shiftLeft]
  cases crc.msb <;> simp [hodd]

/-- The top bit and the register shifted left determine the register. -/
theorem eq_of_msb_eq_of_shiftLeft_one_eq {x y : U16} (hmsb : x.msb = y.msb) (hshift : x <<< 1 = y <<< 1) : x = y := by
  ext i hi
  obtain rfl | hlow : i = 15 ∨ i + 1 < 16 := by omega
  · simpa [BitVec.msb_eq_getLsbD_last] using hmsb
  · have hbit := congrArg (·.getLsbD (i + 1)) hshift
    simpa [BitVec.getLsbD_shiftLeft, hlow] using hbit

theorem crcShift_injective {p : CrcParams} (hodd : p.poly.getLsbD 0 = true) : Function.Injective (crcShift p) := by
  intro x y h
  have hmsb : x.msb = y.msb := by rw [← crcShift_getLsbD_zero hodd, h, crcShift_getLsbD_zero hodd]
  rw [crcShift_eq_xor, crcShift_eq_xor, hmsb, BitVec.xor_left_inj] at h
  exact eq_of_msb_eq_of_shiftLeft_one_eq hmsb h

theorem crcShifts_injective {p : CrcParams} (hodd : p.poly.getLsbD 0 = true) (n : Nat) : Function.Injective (crcShifts p n) := by
  induction n with
  | zero => exact Function.injective_id
  | succ n ih => exact ih.comp (crcShift_injective hodd)

/-! ### One byte -/

theorem reverse_injective {w : Nat} : Function.Injective (BitVec.reverse (w := w)) :=
  Function.Involutive.injective fun _ => BitVec.reverse_reverse_eq

/-- A byte placed in the high half of the register (R82) can be read back from it. -/
theorem byteHigh_injective : Function.Injective fun b : Byte => (b.setWidth 16 : U16) <<< 8 := by
  intro b c h
  refine BitVec.eq_of_getLsbD_eq fun i hi => ?_
  have hbit := congrArg (·.getLsbD (i + 8)) h
  have hhigh : i + 8 < 16 := by omega
  simpa [BitVec.getLsbD_shiftLeft, hhigh] using hbit

/-- The same byte takes different registers to different registers. -/
theorem crcByte_injective_register {p : CrcParams} (hodd : p.poly.getLsbD 0 = true) (b : Byte) :
    Function.Injective fun crc => crcByte p crc b :=
  (crcShifts_injective hodd 8).comp fun _ _ h => (BitVec.xor_left_inj _).mp h

/-- From the same register, different bytes lead to different registers. -/
theorem crcByte_injective_byte {p : CrcParams} (hodd : p.poly.getLsbD 0 = true) (crc : U16) :
    Function.Injective (crcByte p crc) := by
  intro b c h
  have hhigh := (BitVec.xor_right_inj crc).mp (crcShifts_injective hodd 8 h)
  have hinput := byteHigh_injective hhigh
  cases hrefin : p.refin with
  | false => simpa [hrefin] using hinput
  | true => exact reverse_injective (by simpa [hrefin] using hinput)

/-! ### A byte sequence and the result -/

theorem foldl_crcByte_injective {p : CrcParams} (hodd : p.poly.getLsbD 0 = true) (data : List Byte) :
    Function.Injective fun crc => data.foldl (crcByte p) crc := by
  induction data with
  | nil => exact Function.injective_id
  | cons b bs ih => exact ih.comp (crcByte_injective_register hodd b)

/-- The register before byte `b` is that of the bytes before it; the rest runs on from there. -/
theorem crcRegister_append_cons (p : CrcParams) (before after : List Byte) (b : Byte) :
    crcRegister p (before ++ b :: after) = after.foldl (crcByte p) (crcByte p (crcRegister p before) b) := by
  simp only [crcRegister, List.foldl_append, List.foldl_cons]

/-- The output stage (R82: reflection, final exclusive-or) loses nothing, so the checksum tells registers apart. -/
theorem crcRegister_eq_of_crc16_eq {p : CrcParams} {d e : List Byte} (h : crc16 p d = crc16 p e) :
    crcRegister p d = crcRegister p e := by
  have hout := (BitVec.xor_left_inj p.xorout).mp h
  cases hrefout : p.refout with
  | false => simpa [hrefout] using hout
  | true => exact reverse_injective (by simpa [hrefout] using hout)

end Sys2Proof.Machine

/-- Settles O11: the changed byte gives another register, and neither the bytes after it nor the output stage can bring two registers
together. -/
theorem oneChangedByteChangesTheChecksum : Obligations.OneChangedByteChangesTheChecksum := by
  intro p before after b c hodd hne hcrc
  have hregister := crcRegister_eq_of_crc16_eq hcrc
  rw [crcRegister_append_cons, crcRegister_append_cons] at hregister
  have hbyte := foldl_crcByte_injective hodd after hregister
  exact hne (crcByte_injective_byte hodd _ hbyte)

end

section
/-! The frame codec family: what `DECODE` reads at each offset (spec/41_frame_codec.md R94, R95), why the checksum bytes do not bear on
the message (R97), and the exception of `ENCODE` (R171). -/

open Sys2Proof Sys2Proof.Machine

namespace Sys2Proof.Machine

/-! ### Fields as integers -/

/-- Past the end `byteAt` gives zero, so for any other byte the read says that the byte is there. -/
theorem byteAt_eq_iff_getElem? {b : Byte} (hb : b ≠ 0) (d : List Byte) (i : Nat) : byteAt d i = b ↔ d[i]? = some b := by
  cases h : d[i]? with
  | none => simpa [byteAt, h] using hb.symm
  | some c => simp [byteAt, h]

theorem natAt_lt (d : List Byte) (i : Nat) : natAt d i < 256 := (byteAt d i).isLt

/-- The two bytes of a 16-bit field do not overlap, so the field is their sum (R9). -/
theorem le16_toNat (lo hi : Byte) : (le16 lo hi).toNat = lo.toNat + 256 * hi.toNat := by
  have hlo : lo.toNat < 2 ^ 8 := lo.isLt
  have hhi : hi.toNat < 2 ^ 8 := hi.isLt
  have hsum := Nat.shiftLeft_add_eq_or_of_lt hlo hi.toNat
  simp only [le16, BitVec.toNat_or, BitVec.toNat_shiftLeft, BitVec.toNat_setWidth, Nat.shiftLeft_eq] at hsum ⊢
  rw [Nat.mod_eq_of_lt (by omega), Nat.mod_eq_of_lt (by omega), Nat.mod_eq_of_lt (by omega), Nat.or_comm, ← hsum]
  omega

/-- The field at two offsets of some data, as an integer. -/
theorem le16_byteAt_toNat (d : List Byte) (i j : Nat) : (le16 (byteAt d i) (byteAt d j)).toNat = natAt d i + 256 * natAt d j :=
  le16_toNat ..

/-- The size is the low ten bits of the header (R51). -/
theorem headerSize_eq_mod (h : U16) : headerSize h = h.toNat % 1024 := by
  rw [headerSize, BitVec.toNat_and]
  exact Nat.and_two_pow_sub_one_eq_mod h.toNat 10

/-- The response bit is bit 12 of the header (R51). -/
theorem headerIsResponse_iff (h : U16) : headerIsResponse h = true ↔ h.toNat / 4096 % 2 = 1 := by
  have hmask : respMask = BitVec.twoPow 16 12 := rfl
  have hbit : headerIsResponse h = h.getLsbD 12 := by
    rw [headerIsResponse, hmask, BitVec.and_twoPow]
    cases h.getLsbD 12 <;> rfl
  rw [hbit, ← BitVec.testBit_toNat, Nat.testBit_eq_decide_div_mod_eq]
  exact decide_eq_true_iff

/-- The header's payload length, as the statements read it off the bytes (R59). -/
theorem headerPayloadLen_byteAt (d : List Byte) : headerPayloadLen (le16 (byteAt d 1) (byteAt d 2)) = payloadLenAt d := by
  have hlow := natAt_lt d 1
  rw [headerPayloadLen, headerSize_eq_mod, le16_byteAt_toNat, payloadLenAt, sizeAt]
  omega

/-- Seen from the byte at offset 2 the response bit is bit 4. -/
theorem headerIsResponse_byteAt (d : List Byte) :
    headerIsResponse (le16 (byteAt d 1) (byteAt d 2)) = decide (natAt d 2 / 16 % 2 = 1) := by
  have hlow := natAt_lt d 1
  rw [Bool.eq_iff_iff, headerIsResponse_iff, le16_byteAt_toNat, decide_eq_true_iff]
  omega

/-- The ten bits of the size leave room for at most 1020 payload bytes (R7). -/
theorem payloadLenAt_le (d : List Byte) : payloadLenAt d ≤ 1020 := by
  rw [← headerPayloadLen_byteAt]
  exact Nat.sub_le_sub_right (headerSize_le _) 3

/-! ### What `DECODE` answers -/

/-- The tests of R94 as conditions on the bytes; that the end sentinel is there says that the data is long enough (R100). -/
def PassesFrameTests (d : List Byte) : Prop :=
  6 ≤ d.length ∧ d[0]? = some sentStart ∧ d[4 + payloadLenAt d + 2]? = some sentEnd

/-- The message the rule reads from the data (R95). -/
def messageAt (d : List Byte) : Message :=
  ⟨byteAt d 3, (d.drop 4).take (payloadLenAt d), decide (natAt d 2 / 16 % 2 = 1)⟩

/-- The checksum of the message the data holds agrees with the stored one (R96). -/
def crcOkAt (p : CrcParams) (d : List Byte) : Bool :=
  decide ((crc16 p ((messageAt d).messageId :: (messageAt d).payload)).toNat =
    natAt d (4 + payloadLenAt d) + 256 * natAt d (5 + payloadLenAt d))

/-- `DECODE`'s tests and fields in terms of the bytes and their offsets (R94, R95). -/
theorem decodeFrame_eq_ok_iff {p : CrcParams} {d : List Byte} {r : Decoded} :
    decodeFrame p d = .ok r ↔ PassesFrameTests d ∧ r = ⟨messageAt d, crcOkAt p d⟩ := by
  have hslice : slice d 4 (4 + payloadLenAt d) = (d.drop 4).take (payloadLenAt d) := by
    rw [slice, Nat.add_sub_cancel_left]
  have hcrc : crcOk p (byteAt d 3) ((d.drop 4).take (payloadLenAt d))
      (le16 (byteAt d (4 + payloadLenAt d)) (byteAt d (5 + payloadLenAt d))) = crcOkAt p d := by
    rw [Bool.eq_iff_iff, crcOk, beq_iff_eq, ← BitVec.toNat_inj, le16_byteAt_toNat, crcOkAt, decide_eq_true_iff, messageAt]
  rw [decodeFrame_eq_ok, headerPayloadLen_byteAt, headerIsResponse_byteAt, hslice, hcrc,
    byteAt_eq_iff_getElem? (by decide), byteAt_eq_iff_getElem? (by decide)]
  constructor
  · rintro ⟨hlen, hstart, -, hend, hr⟩
    exact ⟨⟨hlen, hstart, hend⟩, hr⟩
  · rintro ⟨⟨hlen, hstart, hend⟩, hr⟩
    obtain ⟨hinside, -⟩ := List.getElem?_eq_some_iff.mp hend
    exact ⟨hlen, hstart, hinside, hend, hr⟩

/-- `DECODE` of data that passes the tests sets the two outputs and nothing else. -/
theorem exec_decode_of_passes {d : List Byte} (h : PassesFrameTests d) (s : State) :
    exec (.decode d) s =
      .next { s with result := .decoded (some (messageAt d)) (some (crcOkAt s.params.crc d)), events := [] } := by
  change execDecode d s = _
  rw [execDecode, decodeFrame_eq_ok_iff.mpr ⟨h, rfl⟩]
  rfl

/-- `DECODE` of data that fails a test answers none, whichever test it was, and changes nothing else (R94). -/
theorem exec_decode_of_not_passes {d : List Byte} (h : ¬ PassesFrameTests d) (s : State) :
    exec (.decode d) s = .next { s with result := .decoded none none, events := [] } := by
  change execDecode d s = _
  cases hd : decodeFrame s.params.crc d with
  | error e => rw [execDecode, hd]; rfl
  | ok r => exact absurd (decodeFrame_eq_ok_iff.mp hd).1 h

/-- A message comes out of `DECODE` only of data that passes the tests, and it is the one its bytes hold. -/
theorem exec_decode_message {d : List Byte} {s t : State} {m : Message} {ok : Option Bool}
    (hexec : exec (.decode d) s = .next t) (hresult : t.result = .decoded (some m) ok) : PassesFrameTests d ∧ m = messageAt d := by
  by_cases h : PassesFrameTests d
  · rw [exec_decode_of_passes h] at hexec
    cases hexec
    cases hresult
    exact ⟨h, rfl⟩
  · rw [exec_decode_of_not_passes h] at hexec
    cases hexec
    cases hresult

/-- Data that passes the tests reaches past its payload, so the slice of the payload is not cut short (R95). -/
theorem messageAt_payload_length {d : List Byte} (h : PassesFrameTests d) : (messageAt d).payload.length = payloadLenAt d := by
  obtain ⟨-, -, hend⟩ := h
  obtain ⟨hinside, -⟩ := List.getElem?_eq_some_iff.mp hend
  simp only [messageAt, List.length_take, List.length_drop]
  omega

theorem getElem?_three_of_passes {d : List Byte} (h : PassesFrameTests d) : d[3]? = some (messageAt d).messageId := by
  obtain ⟨hlen, -, -⟩ := h
  have hinside : 3 < d.length := by omega
  rw [messageAt, byteAt_eq_getElem hinside, List.getElem?_eq_getElem hinside]

/-! ### Other checksum bytes -/

section
variable (d : List Byte) (c0 c1 : Byte)

@[simp] theorem withChecksumBytes_length : (withChecksumBytes d c0 c1).length = d.length := by
  simp [withChecksumBytes]

/-- Only the two bytes between the payload and the end sentinel are replaced (R50). -/
theorem withChecksumBytes_getElem? {i : Nat} (h : i < 4 + payloadLenAt d ∨ 6 + payloadLenAt d ≤ i) :
    (withChecksumBytes d c0 c1)[i]? = d[i]? := by
  rw [withChecksumBytes, List.getElem?_set_ne (by omega), List.getElem?_set_ne (by omega)]

theorem withChecksumBytes_byteAt {i : Nat} (h : i < 4) : byteAt (withChecksumBytes d c0 c1) i = byteAt d i := by
  rw [byteAt, byteAt, List.getD_eq_getElem?_getD, List.getD_eq_getElem?_getD,
    withChecksumBytes_getElem? d c0 c1 (.inl (by omega))]

/-- The header stands before the payload, so the offsets of the frame do not move. -/
@[simp] theorem payloadLenAt_withChecksumBytes : payloadLenAt (withChecksumBytes d c0 c1) = payloadLenAt d := by
  rw [← headerPayloadLen_byteAt, withChecksumBytes_byteAt d c0 c1 (by decide), withChecksumBytes_byteAt d c0 c1 (by decide),
    headerPayloadLen_byteAt]

theorem passesFrameTests_withChecksumBytes : PassesFrameTests (withChecksumBytes d c0 c1) ↔ PassesFrameTests d := by
  rw [PassesFrameTests, PassesFrameTests, withChecksumBytes_length, payloadLenAt_withChecksumBytes,
    withChecksumBytes_getElem? d c0 c1 (.inl (by omega)), withChecksumBytes_getElem? d c0 c1 (.inr (by omega))]

theorem messageAt_withChecksumBytes : messageAt (withChecksumBytes d c0 c1) = messageAt d := by
  have hid := withChecksumBytes_byteAt d c0 c1 (i := 3) (by decide)
  have hresp : natAt (withChecksumBytes d c0 c1) 2 = natAt d 2 :=
    congrArg BitVec.toNat (withChecksumBytes_byteAt d c0 c1 (by decide))
  have hpayload : ((withChecksumBytes d c0 c1).drop 4).take (payloadLenAt d) = (d.drop 4).take (payloadLenAt d) := by
    refine List.ext_getElem? fun i => ?_
    simp only [List.getElem?_take, List.getElem?_drop]
    split
    · exact withChecksumBytes_getElem? d c0 c1 (.inl (by omega))
    · rfl
  rw [messageAt, messageAt, payloadLenAt_withChecksumBytes, hid, hresp, hpayload]

end

/-! ### The exception of `ENCODE` -/

/-- `ENCODE` of a payload that does not fit sets the two outputs and nothing else (R171). -/
theorem exec_encode_raises (mid : Byte) {payload : List Byte} (resp : Bool) (s : State) (h : 1021 ≤ payload.length) :
    exec (.encode mid payload resp) s =
      .next { s with result := .raised (.payloadTooLarge payload.length), events := [] } := by
  obtain ⟨-, herror⟩ | ⟨hshort, -⟩ := encodeFrame_cases s.params.crc mid payload resp
  · change execEncode mid payload resp s = _
    rw [execEncode, herror]
    rfl
  · omega

end Sys2Proof.Machine

/-- Settles O16: `DECODE` answers `messageAt` where the tests pass and none where they do not. -/
theorem decodeAcceptsExactlyTheTestedFrames : Obligations.DecodeAcceptsExactlyTheTestedFrames := by
  intro d s
  by_cases h : PassesFrameTests d
  · refine ⟨_, _, exec_decode_of_passes h s, iff_of_true rfl h, nofun, ?_⟩
    rintro msg ⟨rfl⟩
    have hlen := messageAt_payload_length h
    exact ⟨getElem?_three_of_passes h, rfl, hlen, hlen.trans_le (payloadLenAt_le d), decide_eq_true_iff, rfl⟩
  · exact ⟨none, none, exec_decode_of_not_passes h s, iff_of_false nofun h, fun _ => rfl, nofun⟩

/-- Settles O17: the tests and the message read none of the two bytes replaced. -/
theorem decodeNeverRejectsOnChecksum : Obligations.DecodeNeverRejectsOnChecksum := by
  intro d c0 c1 s t m ok hexec hresult
  obtain ⟨hpasses, rfl⟩ := exec_decode_message hexec hresult
  have hpasses' := (passesFrameTests_withChecksumBytes d c0 c1).mpr hpasses
  rw [← messageAt_withChecksumBytes d c0 c1]
  exact ⟨_, _, exec_decode_of_passes hpasses' s, rfl⟩

/-- Settles O13: the size test comes before anything is written, so raising is all that happens. -/
theorem encodeTooLargeTakesTheException : Obligations.EncodeTooLargeTakesTheException :=
  fun mid _ resp s h => exec_encode_raises mid resp s h

end

section
/-! The orientation family: when `ODECODE` accepts a payload, and the signed values it reads (spec/43_orientation.md R130 to R132). -/

open Sys2Proof Sys2Proof.Machine

namespace Sys2Proof.Machine

/-! ### Signed fields as integers -/

theorem signed16At_eq (p : List Byte) (k : Nat) :
    signed16At p k =
      if (natAt p k + 256 * natAt p (k + 1) : Int) < 32768 then (natAt p k + 256 * natAt p (k + 1) : Int)
      else natAt p k + 256 * natAt p (k + 1) - 65536 := rfl

/-- The two's-complement reading takes 65536 off a field from 32768 on (R9). -/
theorem s16le_byteAt_toInt (p : List Byte) (k : Nat) : (s16le (byteAt p k) (byteAt p (k + 1))).toInt = signed16At p k := by
  rw [s16le, BitVec.toInt_eq_toNat_cond, le16_byteAt_toNat, signed16At_eq]
  omega

/-! ### What `ODECODE` answers -/

/-- The tests of R131 as conditions on the bytes. -/
def PassesOrientationTests (p : List Byte) : Prop := 9 ≤ p.length ∧ p[0]? = some subtypeOri

/-- The orientation the rule reads from the payload (R131, R132). -/
def orientationAt (p : List Byte) : Orientation where
  xr := s16le (byteAt p 1) (byteAt p 2)
  yr := s16le (byteAt p 3) (byteAt p 4)
  zr := s16le (byteAt p 5) (byteAt p 6)
  wr := s16le (byteAt p 7) (byteAt p 8)

/-- `ODECODE`'s tests and values in terms of the bytes and their offsets (R130, R131). -/
theorem odecode_eq_some_iff {p : List Byte} {o : Orientation} :
    odecode p = some o ↔ PassesOrientationTests p ∧ o = orientationAt p := by
  rw [odecode, PassesOrientationTests, ← byteAt_eq_iff_getElem? (by decide)]
  unfold orientationOf oriMinLen
  by_cases hshort : p.length < 9
  · rw [if_pos hshort]
    exact iff_of_false nofun fun ⟨⟨hlen, _⟩, _⟩ => absurd hlen (Nat.not_le.mpr hshort)
  by_cases htag : byteAt p 0 = subtypeOri
  · rw [if_neg hshort, if_neg (not_not.mpr htag)]
    change some (orientationAt p) = some o ↔ _
    rw [Option.some.injEq, eq_comm]
    exact (and_iff_right ⟨Nat.not_lt.mp hshort, htag⟩).symm
  · rw [if_neg hshort, if_pos htag]
    exact iff_of_false nofun fun ⟨⟨_, h⟩, _⟩ => htag h

theorem odecode_isSome_iff {p : List Byte} : (odecode p).isSome = true ↔ PassesOrientationTests p := by
  simp only [Option.isSome_iff_exists, odecode_eq_some_iff, exists_and_left, exists_eq, and_true]

/-- `ODECODE` sets the two outputs and nothing else, whether it accepts or not. -/
theorem exec_odecode (p : List Byte) (s : State) :
    exec (.odecode p) s =
      .next { s with result := .orientation (odecode p) ((odecode p).map renderOrientation), events := [] } := rfl

end Sys2Proof.Machine

/-- Settles O37: the accepted payloads are those that pass the tests, and each value is the signed field at its offset. -/
theorem odecodeReadsFourSignedValues : Obligations.OdecodeReadsFourSignedValues := by
  intro p s
  refine ⟨odecode p, exec_odecode p s, odecode_isSome_iff, fun q hq => ?_⟩
  obtain ⟨-, rfl⟩ := odecode_eq_some_iff.mp hq
  exact ⟨s16le_byteAt_toInt p 1, s16le_byteAt_toInt p 3, s16le_byteAt_toInt p 5, s16le_byteAt_toInt p 7⟩

end

section
/-! The router family: the dispatch rule (spec/44_router.md R150), routing as one equation for the whole next state (R150, R155), and
what any operation can do to `LATEST`, to `OBS` and to the events (R157, R158). -/

open Sys2Proof Sys2Proof.Machine

namespace Sys2Proof.Machine

/-! ### What a message sets and emits -/

theorem acceptedBy_eq_some {m : Message} {o : Orientation} :
    acceptedBy m = some o ↔ m.messageId = msgData ∧ odecode m.payload = some o :=
  Option.ite_none_right_eq_some

theorem acceptedBy_data {m : Message} (h : m.messageId = msgData) : acceptedBy m = odecode m.payload := if_pos h

theorem acceptedBy_other {m : Message} (h : m.messageId ≠ msgData) : acceptedBy m = none := if_neg h

/-- An accepted orientation is notified to the observer, if there is one. -/
theorem eventsOf_accepted {m : Message} {o : Orientation} (h : acceptedBy m = some o) (obs : Option Handle) :
    eventsOf obs m = obs.toList.map fun hd => .oriEvt hd o := by
  obtain ⟨hdata, ho⟩ := acceptedBy_eq_some.mp h
  refine (if_pos hdata).trans ?_
  rw [ho]
  cases obs <;> rfl

/-- Without an orientation only the control arm emits: the first payload byte as a status, if there is one. -/
theorem eventsOf_not_accepted {m : Message} (h : acceptedBy m = none) (obs : Option Handle) :
    eventsOf obs m = if m.messageId = msgControl then (m.payload.take 1).map .statusEvt else [] := by
  by_cases hdata : m.messageId = msgData
  · rw [acceptedBy_data hdata] at h
    refine (if_pos hdata).trans ?_
    rw [h, hdata]
    rfl
  · exact if_neg hdata

/-- A notification carries the handle in the slot (R158). -/
theorem obs_of_oriEvt_mem_eventsOf {obs : Option Handle} {m : Message} {h : Handle} {o : Orientation}
    (hmem : .oriEvt h o ∈ eventsOf obs m) : obs = some h := by
  cases hacc : acceptedBy m with
  | some q =>
    rw [eventsOf_accepted hacc, List.mem_map] at hmem
    obtain ⟨hd, hobs, ⟨⟩⟩ := hmem
    exact Option.mem_toList.mp hobs
  | none =>
    rw [eventsOf_not_accepted hacc] at hmem
    by_cases hcontrol : m.messageId = msgControl
    · rw [if_pos hcontrol] at hmem
      obtain ⟨code, -, ⟨⟩⟩ := List.mem_map.mp hmem
    · rw [if_neg hcontrol] at hmem
      cases hmem

/-! ### `LATEST` after some messages -/

theorem latestAfter_eq_or (old : Option Orientation) (ms : List Message) :
    latestAfter old ms = (ms.filterMap acceptedBy).getLast?.or old := by
  rw [latestAfter]
  cases (ms.filterMap acceptedBy).getLast? <;> rfl

@[simp] theorem latestAfter_nil (old : Option Orientation) : latestAfter old [] = old := rfl

theorem latestAfter_cons (old : Option Orientation) (m : Message) (ms : List Message) :
    latestAfter old (m :: ms) = latestAfter ((acceptedBy m).or old) ms := by
  rw [latestAfter_eq_or, latestAfter_eq_or]
  cases h : acceptedBy m with
  | none => rw [List.filterMap_cons_none h, Option.none_or]
  | some o =>
    rw [List.filterMap_cons_some h, List.getLast?_cons, Option.some_or, Option.some_or]
    cases (ms.filterMap acceptedBy).getLast? <;> rfl

theorem latestAfter_singleton (old : Option Orientation) (m : Message) : latestAfter old [m] = (acceptedBy m).or old :=
  latestAfter_cons old m []

/-- A new value of `LATEST` was accepted from one of the messages (R157). -/
theorem accepted_of_latestAfter_eq_some {old : Option Orientation} {ms : List Message} {o : Orientation}
    (h : latestAfter old ms = some o) (hnew : old ≠ some o) : ∃ m ∈ ms, acceptedBy m = some o := by
  rw [latestAfter_eq_or, Option.or_eq_some_iff] at h
  obtain hlast | ⟨-, hold⟩ := h
  · exact List.mem_filterMap.mp (List.mem_of_getLast? hlast)
  · exact absurd hold hnew

/-- Routing never empties `LATEST`. -/
theorem eq_none_of_latestAfter_eq_none {old : Option Orientation} {ms : List Message} (h : latestAfter old ms = none) :
    old = none := by
  rw [latestAfter_eq_or, Option.or_eq_none_iff] at h
  exact h.2

/-! ### Routing as an equation -/

/-- Routing one message writes `LATEST` and appends its events, and nothing else (R150). -/
theorem routeMessage_eq (m : Message) (s : State) :
    routeMessage m s = { s with latest := (acceptedBy m).or s.latest, events := s.events ++ eventsOf s.obs m } := by
  cases hacc : acceptedBy m with
  | some o =>
    obtain ⟨hdata, ho⟩ := acceptedBy_eq_some.mp hacc
    rw [eventsOf_accepted hacc]
    refine (if_pos hdata).trans ?_
    rw [ho]
    cases hobs : s.obs <;> simp [State.notify, State.emit, State.setLatest, hobs]
  | none =>
    rw [eventsOf_not_accepted hacc]
    by_cases hdata : m.messageId = msgData
    · rw [acceptedBy_data hdata] at hacc
      refine (if_pos hdata).trans ?_
      rw [hacc, hdata]
      simp [msgData, msgControl]
    · refine (if_neg hdata).trans ?_
      by_cases hcontrol : m.messageId = msgControl
      · rw [if_pos hcontrol, if_pos hcontrol]
        cases m.payload <;> simp [State.emit]
      · simp [hcontrol]

/-- Routing messages in order writes `LATEST` and appends their events in order, and nothing else (R156). -/
theorem routeAll_eq (ds : List Decoded) (s : State) :
    routeAll ds s = { s with
      latest := latestAfter s.latest (ds.map (·.msg)), events := s.events ++ (ds.map (·.msg)).flatMap (eventsOf s.obs) } := by
  induction ds generalizing s with
  | nil => simp
  | cons d ds ih => rw [routeAll_cons, ih, routeMessage_eq, List.map_cons, latestAfter_cons, List.flatMap_cons, List.append_assoc]

/-- One message routed as an operation: its effect on `LATEST`, its events, no result (R150). -/
theorem routeOp_eq (m : Message) (s : State) :
    routeOp m s = { s with latest := (acceptedBy m).or s.latest, result := .nothing, events := eventsOf s.obs m } :=
  routeMessage_eq m s.start

theorem exec_route_accepted {m : Message} {o : Orientation} (h : acceptedBy m = some o) (s : State) :
    exec (.route m) s = .next { s with
      latest := some o, result := .nothing, events := s.obs.toList.map fun hd => .oriEvt hd o } := by
  change Host.Outcome.next (routeOp m s) = _
  rw [routeOp_eq, h, eventsOf_accepted h, Option.some_or]

theorem exec_route_not_accepted {m : Message} (h : acceptedBy m = none) (s : State) :
    exec (.route m) s = .next { s with
      result := .nothing, events := if m.messageId = msgControl then (m.payload.take 1).map .statusEvt else [] } := by
  change Host.Outcome.next (routeOp m s) = _
  rw [routeOp_eq, h, eventsOf_not_accepted h, Option.none_or]

/-! ### What an operation can do to `LATEST`, `OBS` and the events -/

/-- From `s` to `t` some messages went through the router: `LATEST` and the events are theirs, the observer stays. An operation that
routes nothing is the case of no messages. -/
def Routed (ms : List Message) (s t : State) : Prop :=
  t.latest = latestAfter s.latest ms ∧ t.obs = s.obs ∧ t.events = ms.flatMap (eventsOf s.obs)

theorem routed_routeOp (m : Message) (s : State) : Routed [m] s (routeOp m s) := by
  rw [routeOp_eq]
  exact ⟨(latestAfter_singleton ..).symm, rfl, (List.flatMap_singleton ..).symm⟩

theorem routed_sfeedOp {chunk : List Byte} {s t : State} (h : sfeedOp chunk s = .next t) :
    ∃ ms oks, t.result = .messages ms oks ∧ Routed ms s t := by
  obtain ⟨b, out, -, rfl⟩ := sfeedOp_next h
  refine ⟨_, _, rfl, ?_⟩
  rw [routeAll_eq]
  exact ⟨rfl, rfl, rfl⟩

/-- Where an operation `i` that ended in `t` can have a message with an orientation from: its operand, or the bytes it reassembled. -/
def MessageOf (i : Instr) (t : State) (m : Message) : Prop :=
  i = .route m ∨ (∃ ms oks, t.result = .messages ms oks ∧ m ∈ ms) ∨
    (∃ p r, m = ⟨194, p, r⟩ ∧ i = .msgSpatialAudioData p r) ∨
    (∃ p r, m = ⟨194, 32 :: p, r⟩ ∧ i = .subtypeOrientation p r)

/-- `i` took `s` to `t` by routing messages, and those with an orientation are its own. -/
def RoutesItsMessages (i : Instr) (s t : State) : Prop :=
  ∃ ms, Routed ms s t ∧ ∀ m ∈ ms, ∀ o, acceptedBy m = some o → MessageOf i t m

theorem routesItsMessages_of_nil {i : Instr} {s t : State} (h : Routed [] s t) : RoutesItsMessages i s t := ⟨[], h, nofun⟩

/-- An operation that only hands back a result routes nothing. -/
theorem routesItsMessages_deliver (i : Instr) (s : State) (r : Result) : RoutesItsMessages i s (s.start.deliver r) :=
  routesItsMessages_of_nil ⟨rfl, rfl, rfl⟩

theorem routesItsMessages_routeOp {i : Instr} {m : Message} {s : State}
    (h : ∀ o, acceptedBy m = some o → MessageOf i (routeOp m s) m) : RoutesItsMessages i s (routeOp m s) :=
  ⟨[m], routed_routeOp m s, List.forall_mem_singleton.mpr h⟩

theorem routesItsMessages_sfeedOp {chunk : List Byte} {i : Instr} {s t : State} (h : sfeedOp chunk s = .next t) :
    RoutesItsMessages i s t := by
  obtain ⟨ms, oks, hresult, hrouted⟩ := routed_sfeedOp h
  exact ⟨ms, hrouted, fun m hm _ _ => .inr (.inl ⟨ms, oks, hresult, hm⟩)⟩

/-- All an operation can do to `LATEST`, `OBS` and the events: `SUBSCRIBE` and `RESET` do what they are for, every other operation
that ends in a next state routes its messages, if it has any. -/
theorem exec_routing_cases {i : Instr} {s t : State} (h : exec i s = .next t) :
    RoutesItsMessages i s t ∨ (∃ hd, i = .subscribe hd ∧ t = s.start.setObs hd) ∨ (i = .reset ∧ t = s.start.clearElements) := by
  cases i with
  | subscribe hd => cases h; exact .inr (.inl ⟨hd, rfl, rfl⟩)
  | reset => cases h; exact .inr (.inr ⟨rfl, rfl⟩)
  | reserved12 | reserved13 | reserved14 | reserved15 => cases h
  | crc16 | decode | odecode | latestRd => cases h; exact .inl (routesItsMessages_deliver ..)
  | encode | euler | rotmat =>
    simp only [exec, execEncode, execEuler, execRotmat] at h
    split at h <;> cases h <;> exact .inl (routesItsMessages_deliver ..)
  | feed =>
    obtain ⟨b, out, -, rfl⟩ := execFeed_next h
    exact .inl (routesItsMessages_of_nil ⟨rfl, rfl, rfl⟩)
  | sfeed | frameHeader | sentStart | sentEnd => exact .inl (routesItsMessages_sfeedOp h)
  | route => cases h; exact .inl (routesItsMessages_routeOp fun _ _ => .inl rfl)
  | msgSpatialAudioData p r =>
    cases h
    exact .inl (routesItsMessages_routeOp fun _ _ => .inr (.inr (.inl ⟨p, r, rfl, rfl⟩)))
  | subtypeOrientation p r =>
    cases h
    exact .inl (routesItsMessages_routeOp fun _ _ => .inr (.inr (.inr ⟨p, r, rfl, rfl⟩)))
  | msgSetSpatialAudioEnable | msgSpatialAudioControl | ctrlAttach | ctrlDetach | ctrlAttachSuccess | ctrlDetachSuccess
  | ctrlKeepAlive => cases h; exact .inl (routesItsMessages_routeOp nofun)

end Sys2Proof.Machine

/-- Settles O34: `LATEST` follows the messages routed, so a new value comes from one of them and routing never empties it. -/
theorem latestRdReturnsLatest : Obligations.LatestRdReturnsLatest := by
  refine ⟨fun _ => rfl, rfl, fun i s t o h hlatest hnew => ?_, fun i s t h hsome hnone => ?_⟩
  · obtain ⟨ms, ⟨hlast, -, -⟩, hsource⟩ | ⟨hd, -, rfl⟩ | ⟨-, rfl⟩ := exec_routing_cases h
    · obtain ⟨m, hm, hacc⟩ := accepted_of_latestAfter_eq_some (hlast ▸ hlatest) hnew
      exact ⟨m, hacc, hsource m hm o hacc⟩
    · exact absurd hlatest hnew
    · cases hlatest
  · obtain ⟨ms, ⟨hlast, -, -⟩, -⟩ | ⟨hd, -, rfl⟩ | ⟨hreset, -⟩ := exec_routing_cases h
    · exact absurd (eq_none_of_latestAfter_eq_none (hlast ▸ hnone)) hsome
    · exact absurd hnone hsome
    · exact hreset

/-- Settles O36: only `SUBSCRIBE` and `RESET` write the slot, and every notification is that of a routed message. -/
theorem subscribeFillsTheObserverSlot : Obligations.SubscribeFillsTheObserverSlot := by
  refine ⟨fun _ _ => rfl, fun h h' s t u _ hu => ?_, fun i s t h o hexec hmem => ?_, fun i s t hexec hsome hnone => ?_⟩
  · cases hu
    rfl
  · obtain ⟨ms, ⟨-, -, hevents⟩, -⟩ | ⟨hd, -, rfl⟩ | ⟨-, rfl⟩ := exec_routing_cases hexec
    · rw [hevents, List.mem_flatMap] at hmem
      obtain ⟨m, -, hm⟩ := hmem
      exact obs_of_oriEvt_mem_eventsOf hm
    · cases hmem
    · cases hmem
  · obtain ⟨ms, ⟨-, hobs, -⟩, -⟩ | ⟨hd, -, rfl⟩ | ⟨hreset, -⟩ := exec_routing_cases hexec
    · exact absurd (hobs ▸ hnone) hsome
    · cases hnone
    · exact hreset

/-- Settles O31: only id 194 with a payload `ODECODE` accepts sets `LATEST`; of the other messages only the control ones emit. -/
theorem routeDispatchesOnTheMessageId : Obligations.RouteDispatchesOnTheMessageId := by
  intro payload resp s
  refine ⟨fun o haccepted => ⟨fun h hobs => ?_, fun hobs => ?_⟩, fun hrejected => ?_, fun code rest hp => ?_, fun hp => ?_,
    fun mid hdata hcontrol => ?_⟩
  · rw [exec_route_accepted (acceptedBy_eq_some.mpr ⟨rfl, haccepted⟩), hobs]
    rfl
  · rw [exec_route_accepted (acceptedBy_eq_some.mpr ⟨rfl, haccepted⟩), hobs]
    rfl
  · exact exec_route_not_accepted (m := ⟨194, payload, resp⟩) hrejected s
  · rw [hp]
    exact exec_route_not_accepted (m := ⟨195, code :: rest, resp⟩) rfl s
  · rw [hp]
    exact exec_route_not_accepted (m := ⟨195, [], resp⟩) rfl s
  · rw [exec_route_not_accepted (acceptedBy_other hdata), if_neg (show mid ≠ msgControl from hcontrol)]

end

section
/-! The exceptions family: a pass that leaves the loop ends the whole `FEED` of a chunk taken whole (spec/42_reassembler.md R110, R112,
R113), so a desync is an ordinary answer (spec/60_exceptions.md R175). -/

open Sys2Proof Sys2Proof.Machine

namespace Sys2Proof.Machine

/-! ### The passes that leave the loop without a candidate -/

/-- The loop condition fails on fewer than 6 bytes (R112). -/
theorem feedPass_short (p : CrcParams) {buf : List Byte} (h : buf.length < minBuf) :
    feedPass p buf = .ok (.stop .short buf) := by
  rw [feedPass_eq, if_pos h]

/-- Enough bytes without a start sentinel are a desync: the buffer is cleared (R113). -/
theorem feedPass_desync (p : CrcParams) {buf : List Byte} (hlen : minBuf ≤ buf.length) (hstart : sentStart ∉ buf) :
    feedPass p buf = .ok (.stop .desync []) := by
  rw [feedPass_eq, if_neg (Nat.not_lt.mpr hlen), (findStart_none_iff buf).mpr hstart]

/-! ### From a pass to the operation -/

/-- A piece whose first pass leaves the loop adds no message. -/
theorem feedPiece_stop {p : CrcParams} {buf piece b : List Byte} {why : LoopExit} (out : List Decoded)
    (h : feedPass p (buf ++ piece) = .ok (.stop why b)) : feedPiece p buf piece out = .ok (b, out) := by
  rw [feedPiece, bufAppend, loopFuel, feedLoop_succ, h]

theorem pieceLength_takenWhole {p : Params} {buf chunk : List Byte} (h : TakenWhole p buf chunk) :
    pieceLength p buf chunk = chunk.length := by
  obtain ⟨hmaxChunk, hbufCap⟩ := h
  exact pieceLength_fits hmaxChunk hbufCap

/-- `FEED` of a chunk taken whole answers what its one piece leaves, and changes nothing else (R110). -/
theorem exec_feed_takenWhole {chunk b : List Byte} {out : List Decoded} {s : State} (hwhole : TakenWhole s.params s.buf chunk)
    (h : feedPiece s.params.crc s.buf chunk [] = .ok (b, out)) :
    exec (.feed chunk) s = .next { s with
      buf := b, result := .messages (out.map (·.msg)) (out.map (·.crcOk)), events := [] } := by
  have hall : feedAll s.params s.buf chunk = .next (b, out) := by
    rw [feedAll, feedPieces_whole _ (pieceLength_takenWhole hwhole), h]
  change execFeed chunk s = _
  rw [execFeed, hall]
  rfl

/-- When the first pass leaves the loop, `FEED` answers that pass's buffer and no message. -/
theorem exec_feed_stop {chunk b : List Byte} {why : LoopExit} {s : State} (hwhole : TakenWhole s.params s.buf chunk)
    (h : feedPass s.params.crc (s.buf ++ chunk) = .ok (.stop why b)) :
    exec (.feed chunk) s = .next { s with buf := b, result := .messages [] [], events := [] } :=
  exec_feed_takenWhole hwhole (feedPiece_stop [] h)

end Sys2Proof.Machine

/-- Settles O24: in both cases the first pass leaves the loop, by a desync or for want of bytes. -/
theorem desyncClearsTheBuffer : Obligations.DesyncClearsTheBuffer := by
  intro chunk s hwhole
  exact ⟨fun hlen hstart => exec_feed_stop hwhole (feedPass_desync _ hlen hstart),
    fun hshort => exec_feed_stop hwhole (feedPass_short _ hshort)⟩

end
